-- ==== Sys2Proof/Word.lean ====
section
/-! DEFINITION. The word types of the wires: a byte of a message, the 32-bit floor count and digest. -/

namespace Sys2Proof

/-- One byte of a message or of a frame's payload. -/
abbrev Byte := BitVec 8

/-- A 32-bit word: the floor count and the digest (R38), an image checksum (R41). -/
abbrev Word32 := BitVec 32

/-- A mask of the 16 bin codes, bit n for bin n (12.1, Table 12.2). -/
abbrev BinMask := BitVec 16

/-- A mask of the 8 sites, one bit for each (R130, R135): bit n-1 for site n. No rule gives the mask a bit order; the one
here is the byte's of NO_SITE (R136, R182, log 33). -/
abbrev SiteMask := BitVec 8

end Sys2Proof
end

