-- ==== Sys2Proof/Config.lean ====
section
/-! DEFINITION. The names the part is built over (states, phases, levels, bands), the configuration record of
R176 with its defaults, the fixed times and capacities of the spec, and the byte codes the spec leaves open. -/

namespace Sys2Proof

/-- The station states (02 Table 2.1), in the order of their codes 0 to 6 (Table 12.2). -/
inductive StationState
  | offline | listening | joining | active | parked | isolated | faulted
  deriving DecidableEq, Repr

/-- A level of a hold, and an authority of a station (R43, R150). -/
inductive Level
  | operator | quality
  deriving DecidableEq, Repr

/-- A temperature band (R41). -/
inductive Band
  | cold | ambient | hot
  deriving DecidableEq, Repr

/-- Why a hold was placed (R43). -/
inductive Reason
  | host | yield | contact | sites | count | timeout
  deriving DecidableEq, Repr

/-- The kinds of reset (R177). -/
inductive ResetCause
  | power | pin | soft
  deriving DecidableEq, Repr

/-- The state of a peer's record (R24). -/
inductive PeerState
  | unknown | present | absent
  deriving DecidableEq, Repr

/-- Where the requester side of a catch-up stands (R61). -/
inductive AttemptPhase
  | none | requesting | deferred | receiving | retryWait
  deriving DecidableEq, Repr

/-- The phase of a Dispatch Queue entry (R87). -/
inductive EntryPhase
  | won | preparing | ready | running | ending
  deriving DecidableEq, Repr

/-- Why a CEDE is owed for an entry (R87, R94). -/
inductive CedeCause
  | hold | load | kit | host | leave
  deriving DecidableEq, Repr

/-- The phase of a kit request (R103). -/
inductive KitPhase
  | removal | taking | fitting
  deriving DecidableEq, Repr

/-- The tester's two program stores (R113). -/
inductive Slot
  | active | staged
  deriving DecidableEq, Repr

/-- The state of a slot record (R113, R114). -/
inductive SlotState
  | unknown | empty | loading | loaded | verifying | verified | failed
  deriving DecidableEq, Repr

/-- The kinds of Tester Line operation (R113, R115). -/
inductive OpKind
  | load | verify | swap | purge
  deriving DecidableEq, Repr

/-- The state of a site (R130). -/
inductive SiteState
  | enabled | masked | retired
  deriving DecidableEq, Repr

/-- The result of a tested unit in the Yield Window (R130, R142). -/
inductive UnitResult
  | pass | fail
  deriving DecidableEq, Repr

/-- The response codes, in the order of Table 11.2 from OK = 0 to UNKNOWN_REQUEST = 14. -/
inductive RespCode
  | ok | badState | badValue | badId | duplicate | floorFull | holdFull | notFound | notAuthorized
  | notOwner | notComplete | alreadyHeld | queueFull | stepRunning | unknownRequest
  deriving DecidableEq, Repr

/-- The configuration record (R176, Table 11.4). -/
structure ConfigRecord where
  authority : Level
  /-- bit 0 COLD, bit 1 AMBIENT, bit 2 HOT (Table 12.2) -/
  reachable : BitVec 8
  siteCount : Nat
  queueLimit : Nat
  /-- ms -/
  beaconInterval : Nat
  /-- ms -/
  bidUnit : Nat
  /-- in units of 10 s; 0 is off -/
  parkTimeout : Nat
  loadRetry : Bool
  /-- ms -/
  blockTimeout : Nat
  attemptLimit : Nat
  failLimit : Nat
  windowSize : Nat
  windowFailLimit : Nat
  tripBins : BinMask
  tripLimit : Nat
  /-- s -/
  insertionTimeout : Nat
  keepOnSoftReset : Bool
  deriving DecidableEq, Repr

/-- The defaults of Table 11.4. -/
def ConfigRecord.default : ConfigRecord where
  authority := .operator
  reachable := 2
  siteCount := 4
  queueLimit := 4
  beaconInterval := 200
  bidUnit := 5
  parkTimeout := 30
  loadRetry := true
  blockTimeout := 500
  attemptLimit := 4
  failLimit := 6
  windowSize := 32
  windowFailLimit := 8
  tripBins := 0
  tripLimit := 10
  insertionTimeout := 10
  keepOnSoftReset := false

namespace Config

/-- The Lot Table's capacity (R36). -/
def maxLots : Nat := 64
/-- The Hold List's capacity (R36). -/
def maxHolds : Nat := 32
/-- The Kit Table's capacity (R36). -/
def maxKits : Nat := 24
/-- The Shipped Ring's capacity (R36). -/
def maxShipped : Nat := 16
/-- The Send Queue's capacity (R8). -/
def maxSend : Nat := 8
/-- The most host-share entries of the Send Queue (R8). -/
def maxHostShare : Nat := 6
/-- The Catch-up Buffer's capacity (R72). -/
def maxBuffer : Nat := 16
/-- The Refusal List's capacity (R99). -/
def maxRefusals : Nat := 4
/-- The Request FIFO's capacity (R173). -/
def maxFifo : Nat := 4
/-- The Discard List's capacity (R174). -/
def maxDiscards : Nat := 4
/-- The Notice Queue's capacity (R175). -/
def maxNotices : Nat := 16
/-- The listen timer's length in ms (R21). -/
def listenMs : Nat := 2500
/-- The answer timer's and the snapshot timer's length in ms (R61). -/
def exchangeMs : Nat := 500
/-- The timer of VERIFY, SWAP and PURGE in ms (R115). -/
def testerMs : Nat := 5000
/-- The largest insertion count of a kit (R44). -/
def maxInsertions : Nat := 16777215

/-! Byte codes that the Formats chapter does not give (R182 codes causes, reasons and outcomes, and Table 12.2
names the items it codes; these are neither). Free values: no body (log 15). -/

/-- FREE VALUE: the byte of a peer state in READ PEERS. -/
opaque peerStateCode : PeerState → Byte
/-- FREE VALUE: the byte of an attempt phase in STATUS. -/
opaque attemptPhaseCode : AttemptPhase → Byte
/-- FREE VALUE: the byte of a Dispatch Queue phase in READ QUEUE and HELD. -/
opaque entryPhaseCode : EntryPhase → Byte
/-- FREE VALUE: the byte of a kit request's phase in READ KITS. -/
opaque kitPhaseCode : KitPhase → Byte
/-- FREE VALUE: the byte of a slot state in READ SLOTS. -/
opaque slotStateCode : SlotState → Byte
/-- FREE VALUE: the byte of an operation's kind in READ SLOTS. -/
opaque opKindCode : OpKind → Byte
/-- FREE VALUE: the byte of a site state in READ SITES. -/
opaque siteStateCode : SiteState → Byte
/-- FREE VALUE: the byte of a Yield Window result in READ SITES. -/
opaque unitResultCode : UnitResult → Byte
/-- FREE VALUE: the byte of the band state's condition, STABLE or CHANGING, in READ KITS. -/
opaque bandConditionCode : Bool → Byte
/-- FREE VALUE: the byte of the insertion state (0 IDLE, 1 WAITING GATE, 2 IN TEST here) in STATUS. -/
opaque insertionStateCode : Nat → Byte
/-- FREE VALUE: the byte of the gate in STATUS. -/
opaque gateCode : Bool → Byte
/-- FREE VALUE: the content by which READ LOT reports a lot as shipped. -/
opaque shippedContent : Nat → List Byte

end Config
end Sys2Proof
end

