-- ==== Sys2Proof/Syntax.lean ====
section
/-! DEFINITION. The commands of spec/opcode_table.json, one constructor a row, with the operands each carries:
what the medium, the host, the tester, the handler or the reset pins give the part. -/

namespace Sys2Proof

/-- A frame as the receiver read it after removing stuff bits (R2): header fields, payload and the CRC as read. The
length field is the number of payload bytes. -/
structure RxFrame where
  kind : BitVec 4
  sender : BitVec 6
  target : BitVec 6
  payload : List Byte
  crc : BitVec 16
  deriving DecidableEq, Repr

/-- How a reception ended (R5, R15). -/
inductive Reception
  /-- the last CRC bit of this station's own transmission, read back without mismatch (R15) -/
  | own
  /-- a coding violation, or an end before the CRC was complete (R5) -/
  | cut
  /-- a whole frame of another transmitter -/
  | whole (f : RxFrame)
  /-- the levels read on the medium, one a bit time and true for recessive, up to the frame's last bit: from the end of
  the last FRAME_END given as levels or of the last whole frame, from a reset, from the start-of-frame bit of a frame
  that won the arbitration, or from behind the last dominant bit of a cut frame or an own transmit fault (R1, log 1) -/
  | levels (bits : List Bool)
  deriving DecidableEq, Repr

/-- A step record of a POST LOT request (12.2): image blocks are two bytes, written as themselves. -/
structure StepFields where
  program : Nat
  revision : Nat
  blocks : Nat
  checksum : Word32
  band : Nat
  family : Nat
  passBins : BinMask
  deriving DecidableEq, Repr

/-- The fields of a POST LOT request (R78, 12.2); the step count is the number of step records. -/
structure LotFields where
  lot : Nat
  device : Nat
  posted : Nat
  lostAllowance : Nat
  steps : List StepFields
  deriving DecidableEq, Repr

/-- The 17 fields of a CONFIGURE request, as coded on the wire (Table 11.4, 12.2). -/
structure ConfigFields where
  authority : Nat
  reachable : BitVec 8
  siteCount : Nat
  queueLimit : Nat
  beaconInterval : Nat
  bidUnit : Nat
  parkTimeout : Nat
  loadRetry : Nat
  blockTimeout : Nat
  attemptLimit : Nat
  failLimit : Nat
  windowSize : Nat
  windowFailLimit : Nat
  tripBins : BinMask
  tripLimit : Nat
  insertionTimeout : Nat
  keepOnSoftReset : Nat
  deriving DecidableEq, Repr

/-- The commands of the block, one constructor for each row of spec/opcode_table.json. -/
inductive Instr
  -- resets, with the levels of the strap pins ID5..ID0 (R20, R177, R178)
  | powerOnReset (straps : BitVec 6)
  | pinReset (straps : BitVec 6)
  | softReset (straps : BitVec 6)
  -- the Floor Link (chapter 1)
  | transmitStart
  | arbitrationLost
  | transmitFault
  | frameEnd (r : Reception)
  -- timer expiries
  | listenTimerExpiry
  | beaconTimerExpiry
  | silenceTimerExpiry (peer : Nat)
  | parkTimerExpiry
  | answerTimerExpiry
  | deferTimerExpiry
  | snapshotTimerExpiry
  | retryTimerExpiry
  | deferenceTimerExpiry (lot step : Nat)
  | blockTimeout
  | verifyTimeout
  | swapTimeout
  | purgeTimeout
  -- the Tester Line (chapter 7, 12.3); `slot` is the slot byte as received
  | blockOk (slot n : Nat)
  | blockBad (slot n cause : Nat)
  | loadEnd (slot : Nat)
  | verifyResult (slot : Nat) (isMatch : Bool)
  | swapDone
  | purgeDone (slot : Nat)
  | testerMessageDiscard (bytes : List Byte)
  | testerByteTimeout
  -- the handler lines and the verdicts (chapter 8)
  | seat (occupancy : SiteMask)
  | verdict (bins : BitVec 32)
  | insertionTimeout
  -- the Cell Line (chapter 11)
  | cellLineMessage (bytes : List Byte)
  | cellByteTimeout
  | cellLineTransmit
  | unknownRequest (type : Byte) (payload : List Byte)
  -- the requests of Table 11.1
  | configure (f : ConfigFields)
  | join
  | leave
  | rejoin
  | reset
  | status
  | readLot (lot : Nat)
  | readHolds
  | readKits
  | readPeers
  | readQueue
  | readSites
  | readSlots
  | postLot (f : LotFields)
  | withdrawLot (lot : Nat)
  | resumeLot (lot : Nat)
  | cede (lot step : Nat)
  | clearRefusals
  | releaseConfirm (lot : Nat)
  | placeHold (scope : Nat) (target : BitVec 32) (level : Nat)
  | liftHold (origin serial : Nat)
  | kitAdd (kit family limit : Nat)
  | kitFound (kit : Nat)
  | kitServiced (kit : Nat)
  | kitRetire (kit : Nat)
  | kitFitted (kit : Nat)
  | kitRemoved (kit : Nat)
  | bandChange (band : Nat)
  | bandReady (band : Nat)
  | endStep (lot step : Nat)
  | siteRestore (site : Nat)
  deriving DecidableEq, Repr

end Sys2Proof
end

