-- ==== Sys2Proof/Decode.lean ====
section
/-! DEFINITION. The block has no instruction words: no row of spec/opcode_table.json gives bits, so no word spells a
command. The frames and messages that do have bits are read in Machine/Frames.lean and Machine/CellLine.lean. -/

namespace Sys2Proof

/-- The command a word spells by the table's bits: none, since the table gives no row any bits. -/
def decodeTableWord (_nbits _w : Nat) : Option Instr := none

end Sys2Proof
end

