-- ==== Sys2Proof/Machine/Records.lean ====
section
/-! DEFINITION. The records the blocks exchange and keep: the floor replica's records (chapter 3), the contents of
Floor Link frames (12.1), the messages of the Tester Line (12.3), and the responses and notices of the Cell Line
(chapter 11). Data only. -/

namespace Sys2Proof.Machine

/-! ### The replica (R36 to R45) -/

/-- The seven fields of a step that POST fixes (R41). -/
structure StepSpec where
  program : Nat
  revision : Nat
  blocks : Nat
  checksum : Word32
  band : Band
  family : Nat
  passBins : BinMask
  deriving DecidableEq, Repr

/-- The state of a step with exactly the fields R41 gives it in that state. -/
inductive StepState
  | pending
  | waiting (entered : Nat)
  | claimed (station entered : Nat)
  | running (station kit entered : Nat)
  | tallied (station kit entered pass fail lost insertions : Nat)
  deriving DecidableEq, Repr

/-- A step record of a plan (R41). -/
structure StepRec where
  spec : StepSpec
  state : StepState
  deriving DecidableEq, Repr

/-- A lot record (R40). The lot's state, its current step and the presence of release confirmed are derived
(Machine/Flags.lean). `confirmed` is the local mark of R42, not floor state. -/
structure LotRec where
  lot : Nat
  device : Nat
  posted : Nat
  lostAllowance : Nat
  origin : Nat
  holdHistory : Bool
  suspended : Bool
  releaseOwner : Option Nat
  confirmed : Bool
  plan : List StepRec
  deriving DecidableEq, Repr

/-- The scope and target of a hold (R43). -/
inductive HoldTarget
  | lot (id : Nat)
  | device (type : Nat)
  | program (id revision : Nat)
  | kit (id : Nat)
  | station (id : Nat)
  deriving DecidableEq, Repr

/-- A hold entry (R43): the hold ID is origin and serial. -/
structure HoldEntry where
  origin : Nat
  serial : BitVec 8
  target : HoldTarget
  level : Level
  reason : Reason
  deriving DecidableEq, Repr

/-- Where a kit is (R44). -/
inductive KitLocation
  | shelf
  | at (station : Nat)
  | stranded (station : Nat)
  deriving DecidableEq, Repr

/-- A kit record (R44); the due mark is derived (Machine/Flags.lean). -/
structure KitRec where
  kit : Nat
  family : Nat
  location : KitLocation
  count : Nat
  limit : Nat
  deriving DecidableEq, Repr

/-- The Floor Replica (R36). Lots and kits are unordered in the spec and kept by ascending ID here (log 24); holds and
the ring are oldest first. -/
structure Replica where
  lots : List LotRec
  holds : List HoldEntry
  kits : List KitRec
  ring : List Nat
  deriving DecidableEq, Repr

/-- The replica after every reset (R36). -/
def Replica.empty : Replica := ⟨[], [], [], []⟩

/-! ### Frames (12.1) -/

/-- The content of a BEACON, which is also the last-beacon fields of a peer (R24, R27). The interval is in 10 ms
units, as it is sent. -/
structure Beacon where
  state : StationState
  authority : Level
  interval : Nat
  count : Word32
  digest : Word32
  depth : Nat
  fitted : Option Nat
  band : Band
  serving : Bool
  deriving DecidableEq, Repr

/-- The lot content of a SNAP ENTRY: a lot record without its step states (Table 12.4). -/
structure LotHead where
  lot : Nat
  device : Nat
  posted : Nat
  lostAllowance : Nat
  origin : Nat
  holdHistory : Bool
  suspended : Bool
  releaseOwner : Option Nat
  specs : List StepSpec
  deriving DecidableEq, Repr

/-- The record of a SNAP ENTRY (Table 12.4). -/
inductive SnapRecord
  | lot (h : LotHead)
  | plan (states : List StepState)
  | hold (h : HoldEntry)
  | kit (k : KitRec)
  | ring (ids : List Nat)
  deriving DecidableEq, Repr

/-- The content of a POST (R48). -/
structure PostBody where
  lot : Nat
  device : Nat
  posted : Nat
  lostAllowance : Nat
  specs : List StepSpec
  deriving DecidableEq, Repr

/-- The kinds of state frame that R180 can find carrying a code that names nothing. -/
inductive CodedKind
  | hold | post
  deriving DecidableEq, Repr

/-- The content of a good frame, by kind and subkind (Table 1.1, Table 12.3). The last three constructors are good
frames with a code that names nothing (R180). -/
inductive FrameBody
  | hold (serial : BitVec 8) (target : HoldTarget) (level : Level) (reason : Reason)
  | lift (origin : Nat) (serial : BitVec 8)
  | ship (lot quantity : Nat)
  | stepStart (lot step kit : Nat)
  | stepTally (lot step kit entered pass fail lost insertions : Nat)
  | orphan (station : Nat)
  | cede (lot step : Nat)
  | bid (lot step : Nat)
  | resume (lot : Nat)
  | withdraw (lot : Nat)
  | post (p : PostBody)
  | kitAdd (kit family limit : Nat)
  | kitTake (kit : Nat)
  | kitGive (kit : Nat)
  | kitFound (kit : Nat)
  | kitServiced (kit : Nat)
  | kitRetire (kit : Nat)
  | catchReq
  | catchDefer
  | snapBegin (count digest : Word32) (lots holds kits : Nat)
  | snapEntry (index : Nat) (rec : SnapRecord)
  | snapEnd (count digest : Word32) (entries : Nat)
  | beacon (b : Beacon)
  | unnamedState (k : CodedKind)
  | unnamedEntry (index : Nat)
  | unnamedBeacon
  deriving DecidableEq, Repr

/-- The block that owns a queued frame (Table 1.1, R8). -/
inductive Owner
  | pu | cu | du | hr | iw | cli
  deriving DecidableEq, Repr

/-- An entry of the Send Queue (R8). `inTx`: its transmission has started and has not ended. `removal`: its owner has
asked for its removal while it was in transmission (R11, log 7). -/
structure SendEntry where
  body : FrameBody
  target : Nat
  owner : Owner
  host : Bool
  faults : Nat
  inTx : Bool
  removal : Bool
  deriving DecidableEq, Repr

/-- The frame in transmission, with the content latched at its start (R12). -/
structure TxFrame where
  body : FrameBody
  target : Nat
  deriving DecidableEq, Repr

/-! ### The Tester Line (12.3) -/

/-- A directive sent to the tester (Table 12.6). -/
inductive Directive
  | load (slot : Slot) (program revision first count : Nat) (checksum : Word32)
  | verify (slot : Slot) (checksum : Word32)
  | swap
  | abort (slot : Slot)
  deriving DecidableEq, Repr

/-- A well-formed message from the tester (Table 12.6), with the slot byte as received. -/
inductive TesterMsg
  | blockOk (slot n : Nat)
  | blockBad (slot n cause : Nat)
  | loadEnd (slot : Nat)
  | verifyResult (slot : Nat) (isMatch : Bool)
  | swapDone
  | purgeDone (slot : Nat)
  | verdict (bins : BitVec 32)
  deriving DecidableEq, Repr

/-! ### Requests (Table 11.1) -/

/-- A request as the Request FIFO holds it: the type, and the fields read from the payload. `badSize` is a known type
whose payload size its type does not allow, `unknown` a type that names no request (R173). -/
inductive Request
  | configure (f : ConfigFields)
  | join
  | leave
  | rejoin
  | reset
  | status
  | readLot (lot : Nat)
  | readHolds
  | readKits
  | readPeers
  | readQueue
  | readSites
  | readSlots
  | postLot (f : LotFields)
  | withdrawLot (lot : Nat)
  | resumeLot (lot : Nat)
  | cede (lot step : Nat)
  | clearRefusals
  | releaseConfirm (lot : Nat)
  | placeHold (scope : Nat) (target : BitVec 32) (level : Nat)
  | liftHold (origin serial : Nat)
  | kitAdd (kit family limit : Nat)
  | kitFound (kit : Nat)
  | kitServiced (kit : Nat)
  | kitRetire (kit : Nat)
  | kitFitted (kit : Nat)
  | kitRemoved (kit : Nat)
  | bandChange (band : Nat)
  | bandReady (band : Nat)
  | endStep (lot step : Nat)
  | siteRestore (site : Nat)
  | badSize (type : Byte)
  | unknown (type : Byte)
  deriving DecidableEq, Repr

/-! ### Records of the blocks that responses report -/

/-- A record of the Peer Table (R24). UNKNOWN records are not listed in the table, so a listed one is PRESENT or
ABSENT. `silence` is the running silence timer in ms, none while it is stopped. -/
structure PeerRec where
  id : Nat
  state : PeerState
  silence : Option Nat
  beacon : Option Beacon
  deriving DecidableEq, Repr

/-- How a Dispatch Queue entry's step left this station's claim (R88), recorded when it happens; reconcile reports it
(log 13). `ended`: its lot was removed as spent by this station's own STEP TALLY. -/
inductive LeftCause
  | ended | ceded | withdrawn | shipped | notOwn
  deriving DecidableEq, Repr

/-- A Dispatch Queue entry (R87). `asked`: the requests of R90 have been made in this stay in PREPARING (log 12). -/
structure QueueEntry where
  lot : Nat
  step : Nat
  phase : EntryPhase
  kitNeeded : Option Nat
  bandNeeded : Option Band
  cede : Option CedeCause
  orphaned : Bool
  left : Option LeftCause
  asked : Bool
  deriving DecidableEq, Repr

/-- A running deference timer (R77, R84): the step it waits for and its remaining ms. -/
structure DeferenceTimer where
  lot : Nat
  step : Nat
  remaining : Nat
  deriving DecidableEq, Repr

/-- A release record (R163). -/
structure ReleaseRec where
  lot : Nat
  waitingReported : Bool
  countHoldRaised : Bool
  shipStanding : Bool
  deriving DecidableEq, Repr

/-- A kit request (R103). -/
structure KitRequest where
  lot : Nat
  step : Nat
  family : Nat
  phase : KitPhase
  candidate : Option Nat
  tried : List Nat
  deriving DecidableEq, Repr

/-- The program a slot record names, with its counts (R113). -/
structure SlotProgram where
  program : Nat
  revision : Nat
  checksum : Word32
  expected : Nat
  done : Nat
  retries : Nat
  deriving DecidableEq, Repr

/-- A slot record (R113). The program is none in UNKNOWN and EMPTY. -/
structure SlotRec where
  state : SlotState
  prog : Option SlotProgram
  deriving DecidableEq, Repr

/-- The operation in flight (R113): its kind, its slot (none for SWAP, which acts on both) and its timer in ms. -/
structure Operation where
  kind : OpKind
  slot : Option Slot
  timer : Nat
  deriving DecidableEq, Repr

/-- A site record (R130). -/
structure SiteRec where
  state : SiteState
  fails : Nat
  masks : Nat
  deriving DecidableEq, Repr

/-- The Step Counters (R130), with the pass set the IW keeps from the step start (R138) and the kit of that start
(log 14). `lot` is none before the first step start. -/
structure StepCounters where
  lot : Option Nat
  step : Nat
  entered : Nat
  tested : Nat
  pass : Nat
  fail : Nat
  lost : Nat
  insertions : Nat
  endPending : Bool
  passBins : BinMask
  kit : Nat
  deriving DecidableEq, Repr

/-- The Step Counters after a reset (R130). -/
def StepCounters.none : StepCounters := ⟨.none, 0, 0, 0, 0, 0, 0, 0, false, 0, 0⟩

/-- The insertion state with its record (R130). -/
inductive Insertion
  | idle
  | waitingGate (occupancy : SiteMask)
  | inTest (enabled : SiteMask) (remaining : Nat)
  deriving DecidableEq, Repr

/-- An automatic hold that is pending (R154). -/
structure PendingHold where
  target : HoldTarget
  level : Level
  reason : Reason
  deriving DecidableEq, Repr

/-! ### Notices (Table 11.3) -/

inductive LeaveFailedCause
  | badState | stepRunning
  deriving DecidableEq, Repr

/-- The notice causes of the table of R29. -/
inductive DivergedCause
  | ahead | digest | holdFull | orphaned
  deriving DecidableEq, Repr

/-- The causes of the table of R75. -/
inductive AttemptCause
  | noReference | noAnswer | deferred | referenceAbsent | referenceLeft | gap | silence | overflow | badEntry
  | digest | holdFull
  deriving DecidableEq, Repr

/-- The causes of POST FAILED (R79). -/
inductive PostFailedCause
  | duplicate | floorFull | sendFailed
  deriving DecidableEq, Repr

/-- The causes of CLAIM LOST, in the order of the table of R88. -/
inductive ClaimLostCause
  | ceded | orphaned | withdrawn | shipped | notOwnAfterCatchUp | notOwn
  deriving DecidableEq, Repr

/-- The causes of CEDE FAILED (R95). -/
inductive CedeFailedCause
  | stepRunning | notFound
  deriving DecidableEq, Repr

/-- The causes of WITHDRAW FAILED (R97). -/
inductive WithdrawFailedCause
  | notFound | stepRunning | sendFailed
  deriving DecidableEq, Repr

/-- The causes of RESUME FAILED (R98) and LIFT FAILED (R157). -/
inductive NotFoundCause
  | notFound | sendFailed
  deriving DecidableEq, Repr

/-- The outcomes of STEP TALLIED (R161). -/
inductive TallyOutcome
  | next (step : Nat) | complete | spent
  deriving DecidableEq, Repr

/-- The causes of KIT FAILED (R108). -/
inductive KitFailedCause
  | noEffect | sendFailed
  deriving DecidableEq, Repr

/-- The kit frames a host asks for (R108). -/
inductive KitSubkind
  | add | found | serviced | retire
  deriving DecidableEq, Repr

/-- The causes of LOAD FAILED, in the order of R123. -/
inductive LoadFailedCause
  | block (cause : Nat) | timeout | sequence | verify
  deriving DecidableEq, Repr

/-- The reasons of TESTER PROTOCOL (R125, R126, R128, R183), in the order of the rules that raise them (log 33). -/
inductive TesterProtocolReason
  | swapTimeout | purgeTimeout | unexpected | badFrame
  deriving DecidableEq, Repr

/-- The causes of HOLD FAILED (R153). -/
inductive HoldFailedCause
  | alreadyHeld | holdFull | sendFailed
  deriving DecidableEq, Repr

/-- The cause found of HOLD LOST (R155). -/
inductive HoldLostCause
  | idPresent | listFull
  deriving DecidableEq, Repr

/-- The conditions a SHIP CONFLICT names (R55). -/
structure ShipConflicts where
  untallied : Bool
  covered : Bool
  suspended : Bool
  deriving DecidableEq, Repr

/-- The notices of Table 11.3, in its order, each with the content its raising rule gives. -/
inductive Notice
  | linkFault (kind subkind : Nat)
  | founded
  | peerPresent (peer : Nat)
  | peerAbsent (peer : Nat)
  | idConflict
  | diverged (cause : DivergedCause)
  | parked
  | left
  | leaveFailed (cause : LeaveFailedCause)
  | joined (count : Word32) (reference : Nat)
  | catchUpFailed (cause : AttemptCause) (reference : Option Nat) (counter : Nat)
  | isolated (cause : AttemptCause)
  | lotSpent (lot step : Nat)
  | lateHold (lot origin : Nat) (serial : BitVec 8)
  | shipDone (lot quantity : Nat)
  | shipConflict (lot sender : Nat) (found : ShipConflicts)
  | posted (lot : Nat)
  | postFailed (lot : Nat) (cause : PostFailedCause)
  | claimWon (lot step tier : Nat)
  | claimLost (lot step : Nat) (cause : ClaimLostCause) (counters : Option StepCounters)
  | bandNeeded (lot step : Nat) (band : Band)
  | cedeFailed (lot step : Nat) (cause : CedeFailedCause)
  | withdrawn (lot : Nat)
  | withdrawFailed (lot : Nat) (cause : WithdrawFailedCause)
  | resumed
  | resumeFailed (cause : NotFoundCause)
  | stepTallied (lot step kit entered pass fail lost insertions : Nat) (outcome : TallyOutcome)
  | tallyRefused (lot step frameEntered replicaEntered : Nat)
  | releaseAssigned (lot formerOwner : Nat)
  | releaseWaiting
  | kitNeeded (lot step family : Nat) (remove fit : Option Nat)
  | kitUpdated (sub : KitSubkind) (kit : Nat)
  | kitFailed (sub : KitSubkind) (kit : Nat) (cause : KitFailedCause)
  | kitMismatch (kit : Nat) (location : Option KitLocation)
  | loadDone (program revision : Nat) (slot : Slot)
  | loadFailed (program revision : Nat) (slot : Slot) (cause : LoadFailedCause) (notLoaded : Nat)
      (lastGood : Option Nat)
  | testerProtocol (kind : Option Nat) (slot : Option Nat) (reason : TesterProtocolReason)
  | seatInTest
  | noSite (occupancy : SiteMask)
  | siteMasked (site masks : Nat)
  | siteRetired (site : Nat)
  | holdPlaced (h : HoldEntry)
  | holdFailed (origin : Nat) (serial : BitVec 8) (cause : HoldFailedCause)
  | holdLost (target : HoldTarget) (level : Level) (reason : Reason) (cause : Option HoldLostCause)
  | holdLifted (h : HoldEntry) (lifter : Option Nat)
  | liftFailed (origin : Nat) (serial : BitVec 8) (cause : NotFoundCause)
  | held (h : HoldEntry) (lot step : Nat) (phase : EntryPhase)
  | reset (cause : ResetCause)
  deriving DecidableEq, Repr

/-! ### Responses and the messages to the host -/

/-- What STATUS reports (R179). -/
structure StatusReport where
  station : StationState
  stationId : Nat
  resetCause : ResetCause
  config : ConfigRecord
  count : Word32
  digest : Word32
  junk : Nat
  sendEntries : Nat
  hostShare : Nat
  phase : AttemptPhase
  attempts : Nat
  serving : Bool
  leaving : Bool
  insertion : Insertion
  gate : Bool
  noticesLost : Bool
  unreported : Nat
  deriving DecidableEq, Repr

/-- The content of a response (R173, R179). -/
inductive Content
  | none
  | status (r : StatusReport)
  | lot (l : LotRec) (release : Option ReleaseRec)
  | shipped (lot : Nat)
  | lotList (lots ring : List Nat)
  | holds (holds : List HoldEntry) (serial : BitVec 8)
  | kits (kits : List KitRec) (fitted : Option Nat) (band : Band) (stable : Bool) (request : Option KitRequest)
      (gives : List Nat)
  | peers (records : List PeerRec)
  | queue (entries : List QueueEntry) (refusals : List (Nat × Nat)) (timers : Nat)
  | sites (sites : List SiteRec) (counters : StepCounters) (window : List UnitResult) (trip : Nat)
  | slots (active staged : SlotRec) (op : Option Operation)
  deriving DecidableEq, Repr

/-- A response: type of its request, code, field index, content (R173). -/
structure Response where
  type : Nat
  code : RespCode
  index : Nat
  content : Content
  deriving DecidableEq, Repr

/-- A discard report (R174). -/
inductive DiscardReport
  | badFrame
  | overrun (type : Nat)
  deriving DecidableEq, Repr

/-- A message from the part to the host. -/
inductive CellMsg
  | response (r : Response)
  | discard (r : DiscardReport)
  | notice (n : Notice)
  deriving DecidableEq, Repr

end Sys2Proof.Machine
end

