-- ==== Sys2Proof/Machine/State.lean ====
section
/-! DEFINITION. The state of one DZ-620: its nine blocks' records, the configuration, the station ID, the Floor
Replica, and the queue of commands; the reasons a step could stop; the state after reset. -/

namespace Sys2Proof.Machine

/-- The LC's judgement of the medium (R1, R12, R14). -/
inductive Medium
  /-- waiting for 11 recessive bit times after a reset or an own transmit fault, the last `run` read being recessive: no
  start of a frame is taken -/
  | notIdle (run : Nat)
  /-- a frame is over, and `run` recessive bit times of the 11 until the medium is idle have been read: none behind a
  last CRC bit, those of a coding violation -/
  | ended (run : Nat)
  | idle
  /-- an own frame is in transmission -/
  | sending
  /-- arbitration is lost, and the winner's frame is under reception -/
  | receiving
  deriving DecidableEq, Repr

/-- The Link Controller (chapter 1). -/
structure LinkController where
  /-- the Send Queue, in ascending kind code, equal codes in the order they joined (R8) -/
  queue : List SendEntry
  /-- the waiting offers, longest waiting first (R9) -/
  waiting : List SendEntry
  medium : Medium
  tx : Option TxFrame
  junk : Nat
  deriving DecidableEq, Repr

/-- The Presence Unit (chapter 2). A timer is none while stopped, else its remaining ms. -/
structure PresenceUnit where
  station : StationState
  /-- the records that are not UNKNOWN, by ascending ID (R24) -/
  peers : List PeerRec
  beaconTimer : Option Nat
  listenTimer : Option Nat
  parkTimer : Option Nat
  listenWait : Bool
  conflictRaised : Bool
  deriving DecidableEq, Repr

/-- The Replica Engine (chapter 3). -/
structure ReplicaEngine where
  replica : Replica
  count : Word32
  digest : Word32
  deriving DecidableEq, Repr

/-- The phases of a serve session (R61). -/
inductive ServePhase
  | open | sending
  deriving DecidableEq, Repr

/-- The serve session of the reference side (R61). -/
structure ServeSession where
  requester : Nat
  phase : ServePhase
  count : Word32
  digest : Word32
  next : Nat
  deriving DecidableEq, Repr

/-- A snapshot under reception: C, D and the numbers of SNAP BEGIN, what has been placed so far, and the lot entry
that awaits its plan entry (R71). -/
structure Assembly where
  count : Word32
  digest : Word32
  lots : Nat
  holds : Nat
  kits : Nat
  head : Option LotHead
  rep : Replica
  deriving DecidableEq, Repr

/-- The Snapshot Copy (R61). -/
inductive SnapshotCopy
  | empty
  | serving (rep : Replica)
  | receiving (a : Assembly)
  deriving DecidableEq, Repr

/-- A state frame held in the Catch-up Buffer (R72), with what the Replica Engine needs to apply it. -/
structure HeardFrame where
  sender : Nat
  own : Bool
  body : FrameBody
  deriving DecidableEq, Repr

/-- The Catch-up Unit (chapter 4). -/
structure CatchUpUnit where
  phase : AttemptPhase
  attempts : Nat
  reference : Option Nat
  defers : Nat
  expected : Nat
  buffer : List HeardFrame
  copy : SnapshotCopy
  session : Option ServeSession
  answerTimer : Option Nat
  snapshotTimer : Option Nat
  deferTimer : Option Nat
  retryTimer : Option Nat
  deriving DecidableEq, Repr

/-- A CLAIM LOST notice that waits for the end of the insertion in test (R88, R147). -/
structure LostClaim where
  lot : Nat
  step : Nat
  cause : ClaimLostCause
  deriving DecidableEq, Repr

/-- The Dispatch Unit (chapters 5 and 10). `evalDue` is the model's own: an event of R83, or of log 63, has come about
in the command under way and its evaluation is still to be made (log 4). -/
structure DispatchUnit where
  queue : List QueueEntry
  timers : List DeferenceTimer
  refusals : List (Nat × Nat)
  leaving : Bool
  releases : List ReleaseRec
  pendingHolds : List PendingHold
  lostAfterTest : List LostClaim
  evalDue : Bool
  deriving DecidableEq, Repr

/-- The Handler Record (chapter 6). -/
structure HandlerRecord where
  fitted : Option Nat
  band : Band
  stable : Bool
  request : Option KitRequest
  gives : List Nat
  deriving DecidableEq, Repr

/-- The Load Engine (chapter 7), with the Tester Line's receiver. `sent` is the model's own record of the directives
sent, oldest first (log 22). -/
structure LoadEngine where
  active : SlotRec
  staged : SlotRec
  op : Option Operation
  rx : List Byte
  sent : List Directive
  deriving DecidableEq, Repr

/-- The Insertion Watch (chapter 8) with its output lines. A line is true while asserted. -/
structure InsertionWatch where
  gate : Bool
  insertion : Insertion
  sites : List SiteRec
  counters : StepCounters
  window : List UnitResult
  trip : Nat
  go : Bool
  en : SiteMask
  halt : Bool
  tallyOwed : Option FrameBody
  pendingHolds : List PendingHold
  deriving DecidableEq, Repr

/-- The Cell Line Interface (chapter 11). `tx` is the model's own: the message the transmitter last took up (log 22). -/
structure CellLineInterface where
  rx : List Byte
  fifo : List Request
  resp : Option Response
  tx : Option CellMsg
  discards : List DiscardReport
  unreported : Nat
  notices : List Notice
  noticesLost : Bool
  resetCause : ResetCause
  serial : BitVec 8
  resetAwaited : Bool
  deriving DecidableEq, Repr

/-- Every block but the Replica Engine: what the blocks' own work may change. -/
structure Blocks where
  lc : LinkController
  pu : PresenceUnit
  cu : CatchUpUnit
  du : DispatchUnit
  hr : HandlerRecord
  le : LoadEngine
  iw : InsertionWatch
  cli : CellLineInterface
  deriving DecidableEq, Repr

/-- The state of the part. -/
structure State where
  /-- the commands that wait, first in first out -/
  pending : List Instr
  stationId : Nat
  config : ConfigRecord
  re : ReplicaEngine
  blocks : Blocks
  deriving DecidableEq, Repr

/-- What the blocks read of the rest of the station: ID, configuration, replica, floor count and digest (R7: no block
reads a partly applied replica). -/
structure View where
  id : Nat
  cfg : ConfigRecord
  rep : Replica
  count : Word32
  digest : Word32
  deriving DecidableEq, Repr

/-- The view of a state's blocks. -/
def State.view (s : State) : View := ⟨s.stationId, s.config, s.re.replica, s.re.count, s.re.digest⟩

/-- The reasons a step could fault: none. The spec gives every command an effect, so no constructor is needed and no
command raises one (safe: nothing is stopped). -/
inductive Fault
  deriving DecidableEq, Repr

/-- The reasons a step could be refused. -/
inductive Refusal
  /-- raised by Dispatch.lean's arm of a command that has no meaning yet; safe, since the model stops. No arm of the
  finished model answers it. -/
  | notModelled (mnemonic : String)
  deriving DecidableEq, Repr

/-! ### The state after reset -/

/-- The LC after any reset, given the junk count (R6, R18). -/
def LinkController.reset (junk : Nat) : LinkController := ⟨[], [], .notIdle 0, none, junk⟩

/-- The PU after any reset (R19). -/
def PresenceUnit.reset : PresenceUnit := ⟨.offline, [], none, none, none, false, false⟩

/-- The digest of the empty replica (12.1). -/
def emptyDigest : Word32 := 0xD202EF8D

/-- The RE after any reset (R36). -/
def ReplicaEngine.reset : ReplicaEngine := ⟨.empty, 0, emptyDigest⟩

/-- The CU after any reset and after a LEAVE (R61). -/
def CatchUpUnit.reset : CatchUpUnit := ⟨.none, 0, none, 0, 0, [], .empty, none, none, none, none, none⟩

/-- The DU after any reset (R77, R163, R154). -/
def DispatchUnit.reset : DispatchUnit := ⟨[], [], [], false, [], [], [], false⟩

/-- The HR after any reset (R102). -/
def HandlerRecord.reset : HandlerRecord := ⟨none, .ambient, false, none, []⟩

/-- The LE after any reset (R113). -/
def LoadEngine.reset : LoadEngine := ⟨⟨.unknown, none⟩, ⟨.unknown, none⟩, none, [], []⟩

/-- A site record after a power-on reset (R130). -/
def SiteRec.fresh : SiteRec := ⟨.enabled, 0, 0⟩

/-- The IW after a reset that leaves the site records as given (R130). -/
def InsertionWatch.reset (sites : List SiteRec) : InsertionWatch :=
  ⟨false, .idle, sites, .none, [], 0, false, 0, true, none, []⟩

/-- The CLI after a reset of the given cause, with the discards-unreported count (R177). -/
def CellLineInterface.reset (cause : ResetCause) (unreported : Nat) : CellLineInterface :=
  ⟨[], [], none, none, [], unreported, [.reset cause], false, cause, 0, false⟩

/-- All blocks after a reset. -/
def Blocks.reset (cause : ResetCause) (junk unreported : Nat) (sites : List SiteRec) : Blocks where
  lc := .reset junk
  pu := .reset
  cu := .reset
  du := .reset
  hr := .reset
  le := .reset
  iw := .reset sites
  cli := .reset cause unreported

/-- The part right after a power-on reset with its strap pins undriven: their pull-downs read as station ID 0
(Table 7.1, R20; DESIGN CHOICE, log 3). A POWER_ON_RESET command gives the straps of a wired cell. -/
def State.reset : State where
  pending := []
  stationId := 0
  config := .default
  re := .reset
  blocks := .reset .power 0 0 (List.replicate 8 .fresh)

end Sys2Proof.Machine
end

