-- ==== Sys2Proof/Machine/Bits.lean ====
section
/-! DEFINITION. Bytes, bits and check values of the wires (chapter 12): most significant first, the CRC-16 of the
Floor Link and the two serial lines, the CRC-32 of the digest, and the serial-number order of wrapping counts. -/

namespace Sys2Proof.Machine

/-- `n` bytes of `v`, most significant first (12). -/
def beBytes : Nat → Nat → List Byte
  | 0, _ => []
  | n + 1, v => BitVec.ofNat 8 (v / 256 ^ n) :: beBytes n v

/-- The number that bytes spell, most significant first (12). -/
def beNat (bs : List Byte) : Nat := bs.foldl (fun acc b => acc * 256 + b.toNat) 0

/-- `n` bits of `v`, most significant first (12). -/
def beBits : Nat → Nat → List Bool
  | 0, _ => []
  | n + 1, v => v.testBit n :: beBits n v

/-- The bits of bytes in the order of transmission. -/
def bytesBits (bs : List Byte) : List Bool := bs.flatMap fun b => beBits 8 b.toNat

/-- One bit into the CRC-16 with polynomial 0x1021 (12.1). -/
def crc16Bit (c : BitVec 16) (b : Bool) : BitVec 16 :=
  if c.msb != b then (c <<< 1) ^^^ 0x1021 else c <<< 1

/-- The CRC-16 of a run of bits: initial value 0xFFFF, no final inversion (12.1). -/
def crc16 (bits : List Bool) : BitVec 16 := bits.foldl crc16Bit 0xFFFF

/-- Eight shifts of the bit-reversed CRC-32 (12.1: polynomial 0x04C11DB7, input bit-reversed). -/
def crc32Shift : Nat → Word32 → Word32
  | 0, c => c
  | n + 1, c => crc32Shift n (if c.getLsbD 0 then (c >>> 1) ^^^ 0xEDB88320 else c >>> 1)

/-- One byte into the CRC-32. -/
def crc32Byte (c : Word32) (b : Byte) : Word32 := crc32Shift 8 (c ^^^ b.setWidth 32)

/-- The CRC-32 of a run of bytes: initial value 0xFFFFFFFF, result inverted (12.1). -/
def crc32 (bs : List Byte) : Word32 := ~~~ (bs.foldl crc32Byte 0xFFFFFFFF)

/-- `a` is ahead of `b` in serial-number order: a - b modulo 2^32 lies between 1 and 2^31 - 1 (scope file, section 6). -/
def ahead (a b : Word32) : Bool := 0 < (a - b).toNat && (a - b).toNat < 2 ^ 31

/-- A byte for a yes/no mark (R182). -/
def flagByte (b : Bool) : Byte := if b then 1 else 0

/-- A byte of a number. -/
def byte (n : Nat) : Byte := BitVec.ofNat 8 n

/-- A byte of an optional number, 0 where it is absent (12, R182). -/
def optByte (o : Option Nat) : Byte := byte (o.getD 0)

/-- An optional number read from a byte that is 0 when absent (12). -/
def byteOpt (b : Byte) : Option Nat := if b = 0 then none else some b.toNat

end Sys2Proof.Machine
end

