-- ==== Sys2Proof/Machine/Frames.lean ====
section
/-! DEFINITION. Floor Link frames (12.1): the codes of Table 12.2, the payloads of Tables 12.3 and 12.4 written and
read, the CRC-16 of a frame, and the LC's judgement of a received frame (R5, R180). -/

namespace Sys2Proof.Machine

/-! ### Codes (Table 12.2) -/

def bandCode : Band → Nat
  | .cold => 1 | .ambient => 2 | .hot => 3

def bandOf : Nat → Option Band
  | 1 => some .cold | 2 => some .ambient | 3 => some .hot | _ => none

def levelCode : Level → Nat
  | .operator => 1 | .quality => 2

def levelOf : Nat → Option Level
  | 1 => some .operator | 2 => some .quality | _ => none

def reasonCode : Reason → Nat
  | .host => 1 | .yield => 2 | .contact => 3 | .sites => 4 | .count => 5 | .timeout => 6

def reasonOf : Nat → Option Reason
  | 1 => some .host | 2 => some .yield | 3 => some .contact | 4 => some .sites | 5 => some .count
  | 6 => some .timeout | _ => none

def stationStateCode : StationState → Nat
  | .offline => 0 | .listening => 1 | .joining => 2 | .active => 3 | .parked => 4 | .isolated => 5 | .faulted => 6

def stationStateOf : Nat → Option StationState
  | 0 => some .offline | 1 => some .listening | 2 => some .joining | 3 => some .active | 4 => some .parked
  | 5 => some .isolated | 6 => some .faulted | _ => none

def scopeCode : HoldTarget → Nat
  | .lot _ => 1 | .device _ => 2 | .program _ _ => 3 | .kit _ => 4 | .station _ => 5

/-- The 4 bytes of a hold target (12.1). -/
def targetBytes : HoldTarget → List Byte
  | .lot id => beBytes 4 id
  | .device t => [0, 0] ++ beBytes 2 t
  | .program p r => beBytes 2 p ++ [byte r, 0]
  | .kit k => [0, 0, 0, byte k]
  | .station s => [0, 0, 0, byte s]

/-- A hold target read from a scope code and 4 bytes; the bytes a scope leaves zero are not read (log 17). -/
def targetOf (scope : Nat) (t0 t1 t2 t3 : Byte) : Option HoldTarget :=
  match scope with
  | 1 => some (.lot (beNat [t0, t1, t2, t3]))
  | 2 => some (.device (beNat [t2, t3]))
  | 3 => some (.program (beNat [t0, t1]) t2.toNat)
  | 4 => some (.kit t3.toNat)
  | 5 => some (.station t3.toNat)
  | _ => none

/-- Image blocks and block counts in one byte: 256 as 0 (Table 12.2). A count of 0, for which it gives no byte, is the
same byte (log 32). -/
def blocksByte (n : Nat) : Byte := byte n

def blocksOf (b : Byte) : Nat := if b = 0 then 256 else b.toNat

/-! ### Step records, step states and replica records -/

/-- A step record of a POST, 12 bytes (12.1). -/
def specBytes (s : StepSpec) : List Byte :=
  beBytes 2 s.program ++ [byte s.revision, blocksByte s.blocks] ++ beBytes 4 s.checksum.toNat
    ++ [byte (bandCode s.band), byte s.family] ++ beBytes 2 s.passBins.toNat

/-- One step record read from its 12 bytes; none when its band code names nothing (R180). -/
def specOf (p0 p1 r bl c0 c1 c2 c3 bd f m0 m1 : Byte) : Option StepSpec :=
  (bandOf bd.toNat).map fun band =>
    { program := beNat [p0, p1], revision := r.toNat, blocks := blocksOf bl,
      checksum := BitVec.ofNat 32 (beNat [c0, c1, c2, c3]), band := band, family := f.toNat,
      passBins := BitVec.ofNat 16 (beNat [m0, m1]) }

/-- `n` step records read from exactly 12 n bytes. -/
def specsOf : Nat → List Byte → Option (List StepSpec)
  | 0, [] => some []
  | n + 1, p0 :: p1 :: r :: bl :: c0 :: c1 :: c2 :: c3 :: bd :: f :: m0 :: m1 :: rest =>
    match specOf p0 p1 r bl c0 c1 c2 c3 bd f m0 m1, specsOf n rest with
    | some s, some ss => some (s :: ss)
    | _, _ => none
  | _, _ => none

/-- A step state of a plan entry, 13 bytes: state, station, kit used, entered, pass, fail, lost, insertions, an absent
one 0 (Table 12.4). -/
def stepStateBytes : StepState → List Byte
  | .pending => [1, 0, 0] ++ beBytes 2 0 ++ beBytes 2 0 ++ beBytes 2 0 ++ beBytes 2 0 ++ beBytes 2 0
  | .waiting e => [2, 0, 0] ++ beBytes 2 e ++ beBytes 2 0 ++ beBytes 2 0 ++ beBytes 2 0 ++ beBytes 2 0
  | .claimed s e => [3, byte s, 0] ++ beBytes 2 e ++ beBytes 2 0 ++ beBytes 2 0 ++ beBytes 2 0 ++ beBytes 2 0
  | .running s k e => [4, byte s, byte k] ++ beBytes 2 e ++ beBytes 2 0 ++ beBytes 2 0 ++ beBytes 2 0 ++ beBytes 2 0
  | .tallied s k e p f l i =>
    [5, byte s, byte k] ++ beBytes 2 e ++ beBytes 2 p ++ beBytes 2 f ++ beBytes 2 l ++ beBytes 2 i

/-- A step state read from its 13 bytes; none when its state code names nothing (R180). -/
def stepStateOf (st s k e0 e1 p0 p1 f0 f1 l0 l1 i0 i1 : Byte) : Option StepState :=
  match st.toNat with
  | 1 => some .pending
  | 2 => some (.waiting (beNat [e0, e1]))
  | 3 => some (.claimed s.toNat (beNat [e0, e1]))
  | 4 => some (.running s.toNat k.toNat (beNat [e0, e1]))
  | 5 => some (.tallied s.toNat k.toNat (beNat [e0, e1]) (beNat [p0, p1]) (beNat [f0, f1]) (beNat [l0, l1])
      (beNat [i0, i1]))
  | _ => none

/-- `n` step states read from exactly 13 n bytes. -/
def stepStatesOf : Nat → List Byte → Option (List StepState)
  | 0, [] => some []
  | n + 1, st :: s :: k :: e0 :: e1 :: p0 :: p1 :: f0 :: f1 :: l0 :: l1 :: i0 :: i1 :: rest =>
    match stepStateOf st s k e0 e1 p0 p1 f0 f1 l0 l1 i0 i1, stepStatesOf n rest with
    | some x, some xs => some (x :: xs)
    | _, _ => none
  | _, _ => none

/-- Lot IDs, 4 bytes each. -/
def idsOf : Nat → List Byte → Option (List Nat)
  | 0, [] => some []
  | n + 1, a :: b :: c :: d :: rest => (idsOf n rest).map fun ids => beNat [a, b, c, d] :: ids
  | _, _ => none

/-- The lot content of Table 12.4. -/
def headBytes (h : LotHead) : List Byte :=
  beBytes 4 h.lot ++ beBytes 2 h.device ++ beBytes 2 h.posted ++ [byte h.lostAllowance, byte h.origin,
    flagByte h.holdHistory ||| (flagByte h.suspended <<< 1), optByte h.releaseOwner, byte h.specs.length]
    ++ h.specs.flatMap specBytes

def planBytes (states : List StepState) : List Byte := states.flatMap stepStateBytes

/-- The hold content of Table 12.4. -/
def holdBytes (h : HoldEntry) : List Byte :=
  [byte h.origin, h.serial, byte (scopeCode h.target)] ++ targetBytes h.target
    ++ [byte (levelCode h.level), byte (reasonCode h.reason)]

/-- The location and location station of a kit (Tables 12.2 and 12.4). -/
def locationBytes : KitLocation → List Byte
  | .shelf => [1, 0]
  | .at s => [2, byte s]
  | .stranded s => [3, byte s]

def locationOf (code s : Byte) : Option KitLocation :=
  match code.toNat with
  | 1 => some .shelf
  | 2 => some (.at s.toNat)
  | 3 => some (.stranded s.toNat)
  | _ => none

/-- The kit content of Table 12.4. -/
def kitBytes (k : KitRec) : List Byte :=
  [byte k.kit, byte k.family] ++ locationBytes k.location ++ beBytes 3 k.count ++ beBytes 3 k.limit

/-- The ring content of Table 12.4. -/
def ringBytes (ids : List Nat) : List Byte := byte ids.length :: ids.flatMap (beBytes 4)

/-- The head of a lot record: everything but its step states and its local mark. -/
def LotRec.head (l : LotRec) : LotHead :=
  ⟨l.lot, l.device, l.posted, l.lostAllowance, l.origin, l.holdHistory, l.suspended, l.releaseOwner,
    l.plan.map StepRec.spec⟩

/-- The lot record of a lot entry followed by its plan entry; release confirmed stands at no (R42, R73). -/
def LotHead.toLot (h : LotHead) (states : List StepState) : LotRec :=
  ⟨h.lot, h.device, h.posted, h.lostAllowance, h.origin, h.holdHistory, h.suspended, h.releaseOwner, false,
    (h.specs.zip states).map fun x => ⟨x.1, x.2⟩⟩

/-- A lot record in the SNAP ENTRY content forms, lot content then plan content (R38, R182). -/
def lotBytes (l : LotRec) : List Byte := headBytes l.head ++ planBytes (l.plan.map StepRec.state)

def SnapRecord.typeCode : SnapRecord → Nat
  | .lot _ => 1 | .plan _ => 2 | .hold _ => 3 | .kit _ => 4 | .ring _ => 5

def SnapRecord.bytes : SnapRecord → List Byte
  | .lot h => headBytes h
  | .plan ss => planBytes ss
  | .hold h => holdBytes h
  | .kit k => kitBytes k
  | .ring ids => ringBytes ids

/-! ### The digest (R38) -/

/-- The order of hold IDs: origin station, then serial (R38). -/
def HoldEntry.before (a b : HoldEntry) : Bool :=
  a.origin < b.origin || (a.origin == b.origin && a.serial.toNat ≤ b.serial.toNat)

/-- A hold put in its place by hold ID; of two with one ID, which a snapshot can bring, the older stands first (log 25). -/
def insertHold (h : HoldEntry) : List HoldEntry → List HoldEntry
  | [] => [h]
  | x :: xs => if h.before x then h :: x :: xs else x :: insertHold h xs

/-- The holds by ascending hold ID. -/
def holdsById (hs : List HoldEntry) : List HoldEntry := hs.foldr insertHold []

/-- The floor state in canonical order (R38). -/
def Replica.canonical (r : Replica) : List Byte :=
  r.lots.flatMap lotBytes ++ (holdsById r.holds).flatMap holdBytes ++ r.kits.flatMap kitBytes ++ ringBytes r.ring

/-- The digest of a replica (R38). -/
def Replica.digest (r : Replica) : Word32 := crc32 r.canonical

/-! ### Payloads written (Table 12.3) -/

/-- The kind code of a content (Table 1.1). -/
def FrameBody.kind : FrameBody → Nat
  | .hold .. => 0
  | .lift .. => 1
  | .ship .. => 2
  | .stepStart .. => 3
  | .stepTally .. => 3
  | .orphan _ => 4
  | .cede .. => 5
  | .bid .. => 6
  | .resume _ => 7
  | .withdraw _ => 8
  | .post _ => 9
  | .kitAdd .. => 10
  | .kitTake _ => 10
  | .kitGive _ => 10
  | .kitFound _ => 10
  | .kitServiced _ => 10
  | .kitRetire _ => 10
  | .catchReq => 11
  | .catchDefer => 11
  | .snapBegin .. => 12
  | .snapEntry .. => 12
  | .snapEnd .. => 12
  | .beacon _ => 13
  | .unnamedState .hold => 0
  | .unnamedState .post => 9
  | .unnamedEntry _ => 12
  | .unnamedBeacon => 13

/-- The subkind code of a content, 0 for a kind without subkinds (Table 12.2). -/
def FrameBody.subkind : FrameBody → Nat
  | .stepStart .. => 1
  | .stepTally .. => 2
  | .kitAdd .. => 1
  | .kitTake _ => 2
  | .kitGive _ => 3
  | .kitFound _ => 4
  | .kitServiced _ => 5
  | .kitRetire _ => 6
  | .catchReq => 1
  | .catchDefer => 2
  | .snapBegin .. => 1
  | .snapEntry .. => 2
  | .snapEnd .. => 3
  | .unnamedEntry _ => 2
  | _ => 0

/-- A state frame: kinds 0 to 10 (Table 1.1). -/
def FrameBody.isState (b : FrameBody) : Bool := b.kind ≤ 10

/-- The BEACON payload (Table 12.3). -/
def beaconBytes (b : Beacon) : List Byte :=
  [byte (stationStateCode b.state), byte (levelCode b.authority), byte b.interval] ++ beBytes 4 b.count.toNat
    ++ beBytes 4 b.digest.toNat ++ [byte b.depth, optByte b.fitted, byte (bandCode b.band), flagByte b.serving]

/-- The POST payload (Table 12.3). -/
def postBytes (p : PostBody) : List Byte :=
  beBytes 4 p.lot ++ beBytes 2 p.device ++ beBytes 2 p.posted ++ [byte p.lostAllowance, byte p.specs.length]
    ++ p.specs.flatMap specBytes

/-- The payload of a content (Table 12.3). The contents with a code that names nothing are built by no station. -/
def FrameBody.payload : FrameBody → List Byte
  | .hold sn t l r =>
    [sn, byte (scopeCode t)] ++ targetBytes t ++ [byte (levelCode l), byte (reasonCode r)]
  | .lift o sn => [byte o, sn]
  | .ship lot q => beBytes 4 lot ++ beBytes 2 q
  | .stepStart lot k kit => [1] ++ beBytes 4 lot ++ [byte k, byte kit]
  | .stepTally lot k kit e p f l i =>
    [2] ++ beBytes 4 lot ++ [byte k, byte kit] ++ beBytes 2 e ++ beBytes 2 p ++ beBytes 2 f ++ beBytes 2 l
      ++ beBytes 2 i
  | .orphan s => [byte s]
  | .cede lot k => beBytes 4 lot ++ [byte k]
  | .bid lot k => beBytes 4 lot ++ [byte k]
  | .resume lot => beBytes 4 lot
  | .withdraw lot => beBytes 4 lot
  | .post p => postBytes p
  | .kitAdd k f l => [1, byte k, byte f] ++ beBytes 3 l
  | .kitTake k => [2, byte k]
  | .kitGive k => [3, byte k]
  | .kitFound k => [4, byte k]
  | .kitServiced k => [5, byte k]
  | .kitRetire k => [6, byte k]
  | .catchReq => [1]
  | .catchDefer => [2]
  | .snapBegin c d l h k => [1] ++ beBytes 4 c.toNat ++ beBytes 4 d.toNat ++ [byte l, byte h, byte k]
  | .snapEntry i r => [2, byte i, byte r.typeCode] ++ r.bytes
  | .snapEnd c d n => [3] ++ beBytes 4 c.toNat ++ beBytes 4 d.toNat ++ [byte n]
  | .beacon b => beaconBytes b
  | .unnamedState _ => []
  | .unnamedEntry _ => []
  | .unnamedBeacon => []

/-! ### Payloads read (R5, R180): none is a payload whose length or subkind makes the frame junk -/

/-- A HOLD; one with a scope, level or reason that names nothing has no effect (R180), and is none of the cases of R53 by
log 66. -/
def readHold : List Byte → Option FrameBody
  | [sn, sc, t0, t1, t2, t3, l, r] =>
    match targetOf sc.toNat t0 t1 t2 t3, levelOf l.toNat, reasonOf r.toNat with
    | some t, some lv, some rs => some (.hold sn t lv rs)
    | _, _, _ => some (.unnamedState .hold)
  | _ => none

def readLift : List Byte → Option FrameBody
  | [o, sn] => some (.lift o.toNat sn)
  | _ => none

def readShip : List Byte → Option FrameBody
  | [a, b, c, d, q0, q1] => some (.ship (beNat [a, b, c, d]) (beNat [q0, q1]))
  | _ => none

def readStep : List Byte → Option FrameBody
  | [sub, a, b, c, d, k, kit] => if sub = 1 then some (.stepStart (beNat [a, b, c, d]) k.toNat kit.toNat) else none
  | [sub, a, b, c, d, k, kit, e0, e1, p0, p1, f0, f1, l0, l1, i0, i1] =>
    if sub = 2 then
      some (.stepTally (beNat [a, b, c, d]) k.toNat kit.toNat (beNat [e0, e1]) (beNat [p0, p1]) (beNat [f0, f1])
        (beNat [l0, l1]) (beNat [i0, i1]))
    else none
  | _ => none

def readOrphan : List Byte → Option FrameBody
  | [s] => some (.orphan s.toNat)
  | _ => none

def readLotStep (mk : Nat → Nat → FrameBody) : List Byte → Option FrameBody
  | [a, b, c, d, k] => some (mk (beNat [a, b, c, d]) k.toNat)
  | _ => none

def readLotOnly (mk : Nat → FrameBody) : List Byte → Option FrameBody
  | [a, b, c, d] => some (mk (beNat [a, b, c, d]))
  | _ => none

def readPost : List Byte → Option FrameBody
  | a :: b :: c :: d :: t0 :: t1 :: u0 :: u1 :: al :: n :: rest =>
    if 1 ≤ n.toNat && n.toNat ≤ 6 && rest.length == 12 * n.toNat then
      match specsOf n.toNat rest with
      | some specs => some (.post ⟨beNat [a, b, c, d], beNat [t0, t1], beNat [u0, u1], al.toNat, specs⟩)
      | none => some (.unnamedState .post)
    else none
  | _ => none

def readKit : List Byte → Option FrameBody
  | [sub, k, f, l0, l1, l2] => if sub = 1 then some (.kitAdd k.toNat f.toNat (beNat [l0, l1, l2])) else none
  | [sub, k] =>
    match sub.toNat with
    | 2 => some (.kitTake k.toNat)
    | 3 => some (.kitGive k.toNat)
    | 4 => some (.kitFound k.toNat)
    | 5 => some (.kitServiced k.toNat)
    | 6 => some (.kitRetire k.toNat)
    | _ => none
  | _ => none

def readCatch : List Byte → Option FrameBody
  | [sub] => if sub = 1 then some .catchReq else if sub = 2 then some .catchDefer else none
  | _ => none

/-- The step counts a plan of 1 to 6 steps allows. -/
def isPlanSize (unit n : Nat) : Bool := n % unit == 0 && 1 ≤ n / unit && n / unit ≤ 6

/-- The record of a SNAP ENTRY of type 1 to 5; none when the content's length is not one its type allows (junk),
`some none` when a code names nothing (R180) or a count byte of its own does not fit a length its type allows (log 53). Of a lot's flags byte, bits 0 and 1 are
read and the others are ignored (log 17). -/
def readRecord (type : Nat) (content : List Byte) : Option (Option SnapRecord) :=
  match type with
  | 1 =>
    match content with
    | a :: b :: c :: d :: t0 :: t1 :: u0 :: u1 :: al :: o :: fl :: ro :: n :: rest =>
      if isPlanSize 12 rest.length then
        some ((specsOf n.toNat rest).map fun specs =>
          .lot ⟨beNat [a, b, c, d], beNat [t0, t1], beNat [u0, u1], al.toNat, o.toNat, fl.getLsbD 0, fl.getLsbD 1,
            byteOpt ro, specs⟩)
      else none
    | _ => none
  | 2 =>
    if isPlanSize 13 content.length then some ((stepStatesOf (content.length / 13) content).map .plan) else none
  | 3 =>
    match content with
    | [o, sn, sc, t0, t1, t2, t3, l, r] =>
      some (match targetOf sc.toNat t0 t1 t2 t3, levelOf l.toNat, reasonOf r.toNat with
        | some t, some lv, some rs => some (.hold ⟨o.toNat, sn, t, lv, rs⟩)
        | _, _, _ => none)
    | _ => none
  | 4 =>
    match content with
    | [k, f, loc, s, c0, c1, c2, l0, l1, l2] =>
      some ((locationOf loc s).map fun location =>
        .kit ⟨k.toNat, f.toNat, location, beNat [c0, c1, c2], beNat [l0, l1, l2]⟩)
    | _ => none
  | 5 =>
    match content with
    | m :: rest =>
      if rest.length % 4 == 0 && rest.length / 4 ≤ 16 then some ((idsOf m.toNat rest).map .ring) else none
    | _ => none
  | _ => none

def readSnap : List Byte → Option FrameBody
  | sub :: rest =>
    match sub.toNat with
    | 1 =>
      match rest with
      | [c0, c1, c2, c3, d0, d1, d2, d3, l, h, k] =>
        some (.snapBegin (BitVec.ofNat 32 (beNat [c0, c1, c2, c3])) (BitVec.ofNat 32 (beNat [d0, d1, d2, d3]))
          l.toNat h.toNat k.toNat)
      | _ => none
    | 2 =>
      match rest with
      | i :: t :: content =>
        (readRecord t.toNat content).map fun r =>
          match r with
          | some rec => .snapEntry i.toNat rec
          | none => .unnamedEntry i.toNat
      | _ => none
    | 3 =>
      match rest with
      | [c0, c1, c2, c3, d0, d1, d2, d3, n] =>
        some (.snapEnd (BitVec.ofNat 32 (beNat [c0, c1, c2, c3])) (BitVec.ofNat 32 (beNat [d0, d1, d2, d3])) n.toNat)
      | _ => none
    | _ => none
  | [] => none

/-- A BEACON's content; one with a state, authority, band or interval outside the formats is a good frame without content
(R5, R180), so it is neither recorded nor judged (R28, log 47). -/
def readBeacon : List Byte → Option FrameBody
  | [st, au, iv, c0, c1, c2, c3, d0, d1, d2, d3, dep, fit, bd, sv] =>
    match stationStateOf st.toNat, levelOf au.toNat, bandOf bd.toNat with
    | some state, some authority, some band =>
      if 5 ≤ iv.toNat && iv.toNat ≤ 100 then
        some (.beacon ⟨state, authority, iv.toNat, BitVec.ofNat 32 (beNat [c0, c1, c2, c3]),
          BitVec.ofNat 32 (beNat [d0, d1, d2, d3]), dep.toNat, byteOpt fit, band, sv != 0⟩)
      else some .unnamedBeacon
    | _, _, _ => some .unnamedBeacon
  | _ => none

/-- The content of a payload by its kind; none when the frame is junk for its kind, subkind or length (R5, R180). -/
def readBody (kind : Nat) (p : List Byte) : Option FrameBody :=
  match kind with
  | 0 => readHold p
  | 1 => readLift p
  | 2 => readShip p
  | 3 => readStep p
  | 4 => readOrphan p
  | 5 => readLotStep .cede p
  | 6 => readLotStep .bid p
  | 7 => readLotOnly .resume p
  | 8 => readLotOnly .withdraw p
  | 9 => readPost p
  | 10 => readKit p
  | 11 => readCatch p
  | 12 => readSnap p
  | 13 => readBeacon p
  | _ => none

/-! ### Whole frames -/

/-- The CRC-16 of a frame: over kind, sender, target, length and payload bits (12.1). -/
def frameCrc (kind sender target : Nat) (payload : List Byte) : BitVec 16 :=
  crc16 (beBits 4 kind ++ beBits 6 sender ++ beBits 6 target ++ beBits 7 payload.length ++ bytesBits payload)

/-- The LC's judgement of a whole frame: its content when the frame is good, none when it is junk (R5, R180). -/
def judgeFrame (f : RxFrame) : Option FrameBody :=
  if f.crc = frameCrc f.kind.toNat f.sender.toNat f.target.toNat f.payload then readBody f.kind.toNat f.payload
  else none

/-- A content as the frame another station receives (12.1). -/
def buildFrame (sender target : Nat) (b : FrameBody) : RxFrame where
  kind := BitVec.ofNat 4 b.kind
  sender := BitVec.ofNat 6 sender
  target := BitVec.ofNat 6 target
  payload := b.payload
  crc := frameCrc b.kind sender target b.payload

end Sys2Proof.Machine
end

