-- ==== Sys2Proof/Machine/Ops.lean ====
section
/-! DEFINITION. The named operations on the stores: the tables of the replica looked up and changed, the Notice Queue,
the Peer Table, the Dispatch Queue, and the updates of one block of the part. -/

namespace Sys2Proof.Machine

/-! ### The replica's tables -/

/-- The lot record of an ID (R40). -/
def Replica.lot? (r : Replica) (id : Nat) : Option LotRec := r.lots.find? fun l => l.lot == id

/-- The step record `k` of a plan, steps counted from 1 (R40). -/
def LotRec.step? (l : LotRec) (k : Nat) : Option StepRec := if k = 0 then none else l.plan[k - 1]?

/-- A step of a lot in the replica. -/
def Replica.step? (r : Replica) (id k : Nat) : Option StepRec := (r.lot? id).bind fun l => l.step? k

/-- The kit record of an ID (R44). -/
def Replica.kit? (r : Replica) (id : Nat) : Option KitRec := r.kits.find? fun k => k.kit == id

/-- The hold entry of a hold ID (R43). -/
def Replica.hold? (r : Replica) (origin : Nat) (serial : BitVec 8) : Option HoldEntry :=
  r.holds.find? fun h => h.origin == origin && h.serial == serial

/-- A hold entry with a scope and target (R43). -/
def Replica.heldAs (r : Replica) (t : HoldTarget) : Bool := r.holds.any fun h => h.target == t

/-- A lot added in its place by ascending ID (log 24). -/
def insertLot (l : LotRec) : List LotRec → List LotRec
  | [] => [l]
  | x :: xs => if l.lot < x.lot then l :: x :: xs else x :: insertLot l xs

/-- A kit added in its place by ascending ID (log 24). -/
def insertKit (k : KitRec) : List KitRec → List KitRec
  | [] => [k]
  | x :: xs => if k.kit < x.kit then k :: x :: xs else x :: insertKit k xs

/-- One lot record changed. -/
def Replica.updateLot (r : Replica) (id : Nat) (f : LotRec → LotRec) : Replica :=
  { r with lots := r.lots.map fun l => if l.lot == id then f l else l }

/-- One lot removed. -/
def Replica.removeLot (r : Replica) (id : Nat) : Replica := { r with lots := r.lots.filter fun l => l.lot != id }

/-- One kit record changed. -/
def Replica.updateKit (r : Replica) (id : Nat) (f : KitRec → KitRec) : Replica :=
  { r with kits := r.kits.map fun k => if k.kit == id then f k else k }

/-- The state of one step of a plan changed, steps counted from 1. -/
def setStepState (st : StepState) : Nat → List StepRec → List StepRec
  | _, [] => []
  | 0, p => p
  | 1, s :: ss => { s with state := st } :: ss
  | k + 2, s :: ss => s :: setStepState st (k + 1) ss

/-- The state of step `k` of a lot changed. -/
def LotRec.setStep (l : LotRec) (k : Nat) (st : StepState) : LotRec := { l with plan := setStepState st k l.plan }

/-! ### Notices (R175) -/

/-- A notice raised: kept while fewer than 16 are held, else dropped with the notices-lost flag set. -/
def raiseCli (n : Notice) (c : CellLineInterface) : CellLineInterface :=
  if c.notices.length < Config.maxNotices then { c with notices := c.notices ++ [n] } else { c with noticesLost := true }

/-- A notice raised by any block. -/
def raise (n : Notice) (b : Blocks) : Blocks := { b with cli := raiseCli n b.cli }

/-- A notice raised under a condition. -/
def raiseIf (c : Bool) (n : Notice) (b : Blocks) : Blocks := if c then raise n b else b

/-! ### The Peer Table (R24) -/

/-- The record of a station; an UNKNOWN one is not listed. -/
def PresenceUnit.peer (p : PresenceUnit) (id : Nat) : PeerRec :=
  (p.peers.find? fun r => r.id == id).getD ⟨id, .unknown, none, none⟩

/-- A record written, by ascending ID. -/
def setPeer (r : PeerRec) : List PeerRec → List PeerRec
  | [] => [r]
  | x :: xs => if x.id == r.id then r :: xs else if r.id < x.id then r :: x :: xs else x :: setPeer r xs

/-- A peer is PRESENT. -/
def PresenceUnit.isPresent (p : PresenceUnit) (id : Nat) : Bool := (p.peer id).state == .present

/-- The authority by which a peer's LIFT is judged: its last beacon's, OPERATOR while none is recorded (R24, R54). -/
def PresenceUnit.authorityOf (p : PresenceUnit) (id : Nat) : Level :=
  match (p.peer id).beacon with
  | some b => b.authority
  | none => .operator

/-! ### The Dispatch Queue (R87) -/

/-- The entry of a lot step. -/
def DispatchUnit.entry? (d : DispatchUnit) (lot step : Nat) : Option QueueEntry :=
  d.queue.find? fun e => e.lot == lot && e.step == step

/-- An entry of the Dispatch Queue changed. -/
def DispatchUnit.updateEntry (d : DispatchUnit) (lot step : Nat) (f : QueueEntry → QueueEntry) : DispatchUnit :=
  { d with queue := d.queue.map fun e => if e.lot == lot && e.step == step then f e else e }

/-- An entry of the Dispatch Queue changed, in the blocks. -/
def updateEntry (lot step : Nat) (f : QueueEntry → QueueEntry) (b : Blocks) : Blocks :=
  { b with du := b.du.updateEntry lot step f }

/-- An event of R83, or one that log 63 adds to them, has come about: the evaluation is due (log 4). -/
def markDue (b : Blocks) : Blocks := { b with du := { b.du with evalDue := true } }

/-- The station state, read by every block (chapter 2). -/
abbrev Blocks.station (b : Blocks) : StationState := b.pu.station

/-! ### Slots (R113) -/

def LoadEngine.slot (l : LoadEngine) : Slot → SlotRec
  | .active => l.active
  | .staged => l.staged

/-- A slot record written; a change of its state or program is an event of R83 (R113). -/
def setSlot (s : Slot) (r : SlotRec) (b : Blocks) : Blocks :=
  match s with
  | .active => markDue { b with le := { b.le with active := r } }
  | .staged => markDue { b with le := { b.le with staged := r } }

/-- The operation record written. -/
def setOp (op : Option Operation) (b : Blocks) : Blocks := { b with le := { b.le with op := op } }

/-- A directive sent on the Tester Line. -/
def sendDirective (d : Directive) (b : Blocks) : Blocks := { b with le := { b.le with sent := b.le.sent ++ [d] } }

end Sys2Proof.Machine
end

