-- ==== Sys2Proof/Machine/Flags.lean ====
section
/-! DEFINITION. What the blocks read off the state: derived marks of the replica (R40 to R44), the two forms of
coverage (R46, R47), eligibility and tiers (R80 to R82), readiness (R91), what the Load Engine wants (R116), the gate's
conditions (R132), the release check's conditions (R165), and the lines that are views of the state. -/

namespace Sys2Proof.Machine

/-! ### Station states -/

/-- ACTIVE or PARKED: a full member of the floor. -/
def isMember (s : StationState) : Bool := s == .active || s == .parked

/-- ACTIVE, PARKED or ISOLATED: the station works on its queue. -/
def isWorking (s : StationState) : Bool := s == .active || s == .parked || s == .isolated

/-- Neither OFFLINE nor FAULTED: the LC accepts frames (R9). -/
def acceptsFrames (s : StationState) : Bool := !(s == .offline || s == .faulted)

/-- The kinds the LC may start in a station state (R13). -/
def kindAllowed (s : StationState) (kind : Nat) : Bool :=
  match s with
  | .offline => false
  | .listening => kind == 13 || kind == 11 || kind == 12
  | .joining => kind == 13 || kind == 11 || kind == 12
  | .active => true
  | .parked => true
  | .isolated => kind == 13 || kind == 3 || kind == 0 || kind == 5
  | .faulted => false

/-- The PARK line: asserted in OFFLINE and PARKED (R19). -/
def State.parkLine (s : State) : Bool := s.blocks.station == .offline || s.blocks.station == .parked

/-! ### Lots, steps and kits -/

def StepState.isTallied : StepState → Bool
  | .tallied .. => true
  | _ => false

def StepState.isWaiting : StepState → Bool
  | .waiting _ => true
  | _ => false

def StepState.isRunning : StepState → Bool
  | .running .. => true
  | _ => false

/-- CLAIMED by a station (R41). -/
def StepState.claimedBy (st : StepState) (s : Nat) : Bool :=
  match st with
  | .claimed t _ => t == s
  | _ => false

/-- RUNNING at a station (R41). -/
def StepState.runningAt (st : StepState) (s : Nat) : Bool :=
  match st with
  | .running t _ _ => t == s
  | _ => false

/-- TALLIED at a station (R41). -/
def StepState.talliedAt (st : StepState) (s : Nat) : Bool :=
  match st with
  | .tallied t .. => t == s
  | _ => false

/-- CLAIMED by or RUNNING at a station. -/
def StepState.heldBy (st : StepState) (s : Nat) : Bool := st.claimedBy s || st.runningAt s

/-- The station field, where present (R41). -/
def StepState.station? : StepState → Option Nat
  | .claimed s _ => some s
  | .running s _ _ => some s
  | .tallied s .. => some s
  | _ => none

/-- The kit used, where present (R41). -/
def StepState.kit? : StepState → Option Nat
  | .running _ k _ => some k
  | .tallied _ k .. => some k
  | _ => none

/-- The entered count, where present, else 0 (R41). -/
def StepState.entered : StepState → Nat
  | .waiting e => e
  | .claimed _ e => e
  | .running _ _ e => e
  | .tallied _ _ e .. => e
  | .pending => 0

/-- The lost count of a TALLIED step, else 0. -/
def StepState.lost : StepState → Nat
  | .tallied _ _ _ _ _ l _ => l
  | _ => 0

/-- The pass count of a TALLIED step, else 0. -/
def StepState.passed : StepState → Nat
  | .tallied _ _ _ p .. => p
  | _ => 0

/-- COMPLETE: every step TALLIED (R40). -/
def LotRec.complete (l : LotRec) : Bool := l.plan.all fun s => s.state.isTallied

/-- The current step: the lowest-numbered step that is not TALLIED, the last when COMPLETE (R40). -/
def LotRec.currentStep (l : LotRec) : Nat :=
  if l.complete then l.plan.length else (l.plan.takeWhile fun s => s.state.isTallied).length + 1

/-- Release confirmed is present while the lot is COMPLETE and its hold history is yes (R40, R42). -/
def LotRec.confirmPresent (l : LotRec) : Bool := l.complete && l.holdHistory

/-- The total lost over all steps (R165). -/
def LotRec.totalLost (l : LotRec) : Nat := l.plan.foldl (fun n s => n + s.state.lost) 0

/-- The last step's pass, the quantity that ships (R165). -/
def LotRec.shipQuantity (l : LotRec) : Nat :=
  match l.plan.getLast? with
  | some s => s.state.passed
  | none => 0

/-- A COMPLETE lot whose release owner is a station (R40). -/
def LotRec.ownedBy (l : LotRec) (s : Nat) : Bool := l.complete && l.releaseOwner == some s

/-- Some step of the lot is RUNNING (R56). -/
def LotRec.anyRunning (l : LotRec) : Bool := l.plan.any fun s => s.state.isRunning

/-- The due mark: the insertion count at or above the service limit (R44). -/
def KitRec.due (k : KitRec) : Bool := k.limit ≤ k.count

/-- The bins 1 to 15 of a pass set; bit 0 names no bin of the set (R41, log 16). -/
def inPassSet (m : BinMask) (bin : Nat) : Bool := bin != 0 && m.getLsbD bin

/-- A pass-bin set is non-empty (R48). -/
def passSetNonEmpty (m : BinMask) : Bool := m &&& 0xFFFE != 0

/-! ### Coverage -/

/-- The step form (R46): does an entry cover lot, step, station and kit? -/
def HoldEntry.coversStep (h : HoldEntry) (l : LotRec) (sp : StepSpec) (station : Nat) (kit : Option Nat) : Bool :=
  match h.target with
  | .lot id => id == l.lot
  | .device t => t == l.device
  | .program p r => p == sp.program && r == sp.revision
  | .kit k => kit == some k
  | .station s => s == station

/-- A combination is covered when some entry covers it (R46). -/
def Replica.coveredStep (r : Replica) (l : LotRec) (sp : StepSpec) (station : Nat) (kit : Option Nat) : Bool :=
  r.holds.any fun h => h.coversStep l sp station kit

/-- The lot form (R47). -/
def HoldEntry.coversLot (h : HoldEntry) (l : LotRec) : Bool :=
  match h.target with
  | .lot id => id == l.lot
  | .device t => t == l.device
  | .program p r => l.plan.any fun s => p == s.spec.program && r == s.spec.revision
  | .kit k => l.plan.any fun s => s.state.kit? == some k
  | .station s => l.plan.any fun x => x.state.station? == some s

/-- A lot is covered for release (R47). -/
def Replica.coveredLot (r : Replica) (l : LotRec) : Bool := r.holds.any fun h => h.coversLot l

/-- A kit is named by a KIT hold. -/
def Replica.kitHeld (r : Replica) (k : Nat) : Bool := r.heldAs (.kit k)

/-- A pair is held: a PROGRAM entry names it (R116). -/
def Replica.pairHeld (r : Replica) (p : Nat × Nat) : Bool := r.heldAs (.program p.1 p.2)

/-! ### Kits, eligibility, tiers (R80 to R82) -/

/-- A kit record usable for a family at a location: of the family, not due, not named by a KIT hold (R80). -/
def kitServes (r : Replica) (family : Nat) (loc : KitLocation) (k : KitRec) : Bool :=
  k.location == loc && k.family == family && !k.due && !r.kitHeld k.kit

/-- The fitted kit, when it is usable for a family (R80). -/
def usableFitted (v : View) (hr : HandlerRecord) (family : Nat) : Option Nat :=
  match hr.fitted with
  | some k =>
    match v.rep.kit? k with
    | some rec => if kitServes v.rep family (.at v.id) rec then some k else none
    | none => none
  | none => none

/-- The lowest-ID kit on SHELF usable for a family (R80). -/
def shelfKit (v : View) (family : Nat) : Option Nat :=
  (v.rep.kits.find? fun k => kitServes v.rep family .shelf k).map KitRec.kit

/-- The kit the station would use for a family (R80). -/
def kitFor (v : View) (hr : HandlerRecord) (family : Nat) : Option Nat :=
  match usableFitted v hr family with
  | some k => some k
  | none => shelfKit v family

/-- A band is one of the configured reachable bands (R81). -/
def reaches (c : ConfigRecord) (band : Band) : Bool := c.reachable.getLsbD (bandCode band - 1)

def FrameBody.isBid : FrameBody → Bool
  | .bid .. => true
  | _ => false

/-- A frame that stands in the Send Queue or waits as an offer. An entry whose owner has asked for its removal does
not stand (log 7). -/
def LinkController.standing (lc : LinkController) (p : FrameBody → Bool) : Bool :=
  (lc.queue.any fun e => p e.body && !e.removal) || lc.waiting.any fun e => p e.body

/-- The number of own BIDs in the Send Queue or waiting (R81). -/
def LinkController.ownBids (lc : LinkController) : Nat :=
  (lc.queue.filter fun e => e.body.isBid).length + (lc.waiting.filter fun e => e.body.isBid).length

/-- An own BID for a step stands in the Send Queue or waits (R83). -/
def LinkController.hasBid (lc : LinkController) (lot step : Nat) : Bool :=
  (lc.queue.any fun e => e.body == .bid lot step) || lc.waiting.any fun e => e.body == .bid lot step

/-- The station is eligible for a step (R81). -/
def eligible (v : View) (b : Blocks) (l : LotRec) (s : StepRec) : Bool :=
  isMember b.station && !b.du.leaving
    && s.state.isWaiting && !l.suspended
    && reaches v.cfg s.spec.band
    && !b.du.refusals.contains (s.spec.program, s.spec.revision)
    && b.du.queue.length + b.lc.ownBids < v.cfg.queueLimit
    && match kitFor v b.hr s.spec.family with
      | some k => !v.rep.coveredStep l s.spec v.id (some k)
      | none => false

/-- A slot presents a program: it names it in LOADED, VERIFYING or VERIFIED (R82, R114). -/
def SlotRec.presents (r : SlotRec) (p : Nat × Nat) : Bool :=
  (r.state == .loaded || r.state == .verifying || r.state == .verified)
    && match r.prog with
      | some q => q.program == p.1 && q.revision == p.2
      | none => false

/-- The pair a slot record names, present or not. -/
def SlotRec.pair? (r : SlotRec) : Option (Nat × Nat) := r.prog.map fun q => (q.program, q.revision)

/-- A slot holds a program in a given state. -/
def SlotRec.holds (r : SlotRec) (st : SlotState) (p : Nat × Nat) : Bool := r.state == st && r.pair? == some p

def StepSpec.pair (s : StepSpec) : Nat × Nat := (s.program, s.revision)

/-- The tier of a step at this station (R82). -/
def tier (v : View) (b : Blocks) (sp : StepSpec) : Nat :=
  if (usableFitted v b.hr sp.family).isNone then 3
  else if b.hr.band != sp.band then 2
  else if !(b.le.active.presents sp.pair || b.le.staged.presents sp.pair) then 1
  else 0

/-- The duration of a deference timer that starts now (R84). -/
def deferenceMs (v : View) (b : Blocks) (sp : StepSpec) : Nat :=
  (4 * tier v b sp + b.du.queue.length) * v.cfg.bidUnit
    + (if b.station == .parked then 8 * v.cfg.bidUnit else 0)

/-! ### Entries of the Dispatch Queue -/

/-- WON, PREPARING or READY: the entry can be given back (R94). -/
def beforeRun : EntryPhase → Bool
  | .won => true
  | .preparing => true
  | .ready => true
  | _ => false

/-- An entry is the head (R87). -/
def DispatchUnit.isHead (d : DispatchUnit) (e : QueueEntry) : Bool :=
  match d.queue with
  | h :: _ => h.lot == e.lot && h.step == e.step
  | [] => false

/-- The head is RUNNING or ENDING (R107, R111). -/
def DispatchUnit.headInRun (d : DispatchUnit) : Bool :=
  match d.queue with
  | h :: _ => !beforeRun h.phase
  | [] => false

/-- The kit the Dispatch Unit tests an entry with: the kit of R80 for an entry in WON, the fitted kit for the head in
PREPARING or READY (R94); for an entry of any other kind, as a RUNNING or ENDING one, the fitted kit too (log 50). -/
def entryKit (v : View) (b : Blocks) (e : QueueEntry) (family : Nat) : Option Nat :=
  if e.phase == .won then kitFor v b.hr family else b.hr.fitted

/-- Some hold covers an entry as R94 tests it; none where the replica shows the entry's step no longer (log 56). -/
def entryCovered (v : View) (b : Blocks) (e : QueueEntry) : Bool :=
  match v.rep.lot? e.lot with
  | some l =>
    match l.step? e.step with
    | some s => v.rep.coveredStep l s.spec v.id (entryKit v b e s.spec.family)
    | none => false
  | none => false

/-- One hold entry covers a Dispatch Queue entry as R94 tests it (R158; a RUNNING or ENDING one by log 50); not where the
replica shows the entry's step no longer (log 56). -/
def holdCoversEntry (v : View) (b : Blocks) (h : HoldEntry) (e : QueueEntry) : Bool :=
  match v.rep.lot? e.lot with
  | some l =>
    match l.step? e.step with
    | some s => h.coversStep l s.spec v.id (entryKit v b e s.spec.family)
    | none => false
  | none => false

/-- The readiness conditions of R91 but the one on the ACTIVE slot. -/
def readyButSlot (v : View) (b : Blocks) (e : QueueEntry) : Bool :=
  isWorking b.station && e.cede.isNone
    && match v.rep.lot? e.lot with
      | some l =>
        match l.step? e.step with
        | some s =>
          s.state.claimedBy v.id
            && (usableFitted v b.hr s.spec.family).isSome
            && (b.hr.stable && b.hr.band == s.spec.band)
            && !v.rep.coveredStep l s.spec v.id b.hr.fitted
        | none => false
      | none => false

/-- The pair of an entry's step in the replica (R116). -/
def entryPair (v : View) (e : QueueEntry) : Option (Nat × Nat) := (v.rep.step? e.lot e.step).map fun s => s.spec.pair

/-- The readiness conditions of R91. -/
def ready (v : View) (b : Blocks) (e : QueueEntry) : Bool :=
  readyButSlot v b e
    && match entryPair v e with
      | some p => b.le.active.holds .verified p
      | none => false

/-- A pair is wanted: some entry without a cede cause names it (R116). -/
def wanted (v : View) (b : Blocks) (p : Nat × Nat) : Bool :=
  b.du.queue.any fun e => e.cede.isNone && entryPair v e == some p

/-! ### Sites and the gate -/

/-- The record of site `n`, 1 to 8. -/
def InsertionWatch.site (w : InsertionWatch) (n : Nat) : SiteRec := (w.sites[n - 1]?).getD .fresh

/-- A configured site that is ENABLED (R130). -/
def siteEnabled (v : View) (w : InsertionWatch) (n : Nat) : Bool :=
  1 ≤ n && n ≤ v.cfg.siteCount && n ≤ 8 && (w.site n).state == .enabled

/-- The site numbers 1 to 8. -/
def siteNumbers : List Nat := [1, 2, 3, 4, 5, 6, 7, 8]

/-- Some configured site is ENABLED. -/
def anySiteEnabled (v : View) (w : InsertionWatch) : Bool := siteNumbers.any (siteEnabled v w)

/-- SITEOFFn: asserted while site n is unconfigured, MASKED or RETIRED (R131). -/
def State.siteOff (s : State) (n : Nat) : Bool := !siteEnabled s.view s.blocks.iw n

/-- The conditions of the gate (R132). -/
def gateConditions (v : View) (b : Blocks) : Bool :=
  isWorking b.station
    && (match b.du.queue with
      | h :: _ =>
        h.phase == .running
          && (match v.rep.lot? h.lot with
            | some l =>
              match l.step? h.step with
              | some s =>
                s.state.runningAt v.id
                  && !l.suspended
                  && !v.rep.coveredStep l s.spec v.id b.hr.fitted
                  && b.le.active.holds .verified s.spec.pair
                  && (b.hr.fitted.isSome && b.hr.fitted == s.state.kit?)
                  && (b.hr.stable && b.hr.band == s.spec.band)
              | none => false
            | none => false)
      | [] => false)
    && anySiteEnabled v b.iw

/-! ### The release check (R165) -/

/-- Condition 4: the total lost is no more than the allowance. -/
def lossAllowed (l : LotRec) : Bool := l.totalLost ≤ l.lostAllowance

/-- Condition 5: if hold history is yes, release confirmed is yes. -/
def confirmedOk (l : LotRec) : Bool := !l.holdHistory || (l.confirmPresent && l.confirmed)

/-- The five conditions of R165 for a lot of the replica. -/
def releasable (v : View) (l : LotRec) : Bool :=
  l.ownedBy v.id && !l.suspended && !v.rep.coveredLot l && lossAllowed l && confirmedOk l

/-! ### The peers -/

/-- The last beacon shows ACTIVE or PARKED. -/
def PeerRec.showsMember (r : PeerRec) : Bool :=
  match r.beacon with
  | some b => isMember b.state
  | none => false

/-- The replica shows a station holding something: a CLAIMED or RUNNING step, a kit AT it, or a COMPLETE lot it is the
release owner of (R30). -/
def Replica.shows (r : Replica) (s : Nat) : Bool :=
  (r.lots.any fun l => l.plan.any fun x => x.state.heldBy s)
    || (r.kits.any fun k => k.location == .at s)
    || r.lots.any fun l => l.ownedBy s

end Sys2Proof.Machine
end

