-- ==== Sys2Proof/Machine/Link.lean ====
section
/-! DEFINITION. The Link Controller's Send Queue (chapter 1): joining in kind order, the share limits, waiting offers
and grants, withdrawal by the owner, and the removal of the entry in transmission. -/

namespace Sys2Proof.Machine

/-- An entry joins in ascending kind code, behind the entries of equal code (R8). -/
def insertEntry (e : SendEntry) : List SendEntry → List SendEntry
  | [] => [e]
  | x :: xs => if e.body.kind < x.body.kind then e :: x :: xs else x :: insertEntry e xs

/-- The host-share entries of the Send Queue (R8). -/
def LinkController.hostShare (lc : LinkController) : Nat := (lc.queue.filter fun e => e.host).length

/-- The Send Queue has room for a host-share entry (R8). -/
def LinkController.hostRoom (lc : LinkController) : Bool :=
  lc.hostShare < Config.maxHostShare && lc.queue.length < Config.maxSend

/-- The waiting offer that is granted next: the lowest kind code, among equals the longest waiting (R9). -/
def nextOffer : List SendEntry → Option SendEntry
  | [] => none
  | e :: es =>
    match nextOffer es with
    | some f => if f.body.kind < e.body.kind then some f else some e
    | none => some e

/-- One grant, when the queue has a free entry and an offer waits (R9). A granted BID goes on standing as an own BID, so
its grant is no event of R83 (log 49). -/
def grantOne (lc : LinkController) : LinkController :=
  if lc.queue.length < Config.maxSend then
    match nextOffer lc.waiting with
    | some e => { lc with queue := insertEntry e lc.queue, waiting := lc.waiting.erase e }
    | none => lc
  else lc

/-- Up to `n` grants. -/
def grants : Nat → LinkController → LinkController
  | 0, lc => lc
  | n + 1, lc => grants n (grantOne lc)

/-- `n` entries have left the queue: one grant for each (R9). -/
@[irreducible] def refill (n : Nat) (lc : LinkController) : LinkController := grants n lc

/-- The entries satisfying `p` leave the queue, and each freed entry is granted (R9). -/
def LinkController.release (p : SendEntry → Bool) (lc : LinkController) : LinkController :=
  refill (lc.queue.countP p) { lc with queue := lc.queue.filter fun e => !p e }

def isBeacon : FrameBody → Bool
  | .beacon _ => true
  | _ => false

/-- A frame offered to the LC: it joins the Send Queue, or waits while 8 entries are held (R9). At most one BEACON
stands or waits, and a second one is absorbed (R10). -/
def offerLc (e : SendEntry) (lc : LinkController) : LinkController :=
  if isBeacon e.body && lc.standing isBeacon then lc
  else if lc.queue.length < Config.maxSend then { lc with queue := insertEntry e lc.queue }
  else { lc with waiting := lc.waiting ++ [e] }

/-- A frame offered by a block. In OFFLINE and FAULTED it is answered SEND FAILED at once (R9): nothing is queued, and
what its owner then owes stands in the owner's own record. -/
def offer (body : FrameBody) (target : Nat) (owner : Owner) (host : Bool) (b : Blocks) : Blocks :=
  if acceptsFrames b.station then
    { b with lc := offerLc ⟨body, target, owner, host, 0, false, false⟩ b.lc }
  else b

/-- The target of every kind but CATCH and SNAP (R3). -/
def allStations : Nat := 63

/-- Entries withdrawn by their owner: removed unless in transmission, where the wish to remove is kept (R11, log 7). -/
def withdrawLc (p : FrameBody → Bool) (lc : LinkController) : LinkController :=
  LinkController.release (fun e => p e.body && !e.inTx) { lc with
    queue := lc.queue.map fun e => if p e.body && e.inTx then { e with removal := true } else e
    waiting := lc.waiting.filter fun e => !(p e.body) }

/-- Entries and waiting offers withdrawn by their owner (R11). -/
def withdrawAll (p : FrameBody → Bool) (b : Blocks) : Blocks := { b with lc := withdrawLc p b.lc }

/-- One frame withdrawn by its owner (R11). -/
def withdrawFrame (body : FrameBody) (b : Blocks) : Blocks := withdrawAll (· == body) b

/-- The entry in transmission. -/
def LinkController.txEntry? (lc : LinkController) : Option SendEntry := lc.queue.find? fun e => e.inTx

/-- The first entry satisfying `p` removed. -/
def removeFirst (p : SendEntry → Bool) : List SendEntry → List SendEntry
  | [] => []
  | x :: xs => if p x then xs else x :: removeFirst p xs

/-- The first entry satisfying `p` marked as in transmission. -/
def markFirst (p : SendEntry → Bool) : List SendEntry → List SendEntry
  | [] => []
  | x :: xs => if p x then { x with inTx := true } :: xs else x :: markFirst p xs

/-- An own BID is in transmission (R34). -/
def LinkController.bidInTx (lc : LinkController) : Bool :=
  match lc.tx with
  | some t => t.body.isBid
  | none => false

/-- A given frame is in transmission (R106). -/
def LinkController.inTransmission (lc : LinkController) (body : FrameBody) : Bool :=
  match lc.tx with
  | some t => t.body == body
  | none => false

/-- A BEACON offered by the Presence Unit (R26). Its content is built at its transmit start (R12), so the queued entry
carries a blank one. -/
def blankBeacon : FrameBody := .beacon ⟨.offline, .operator, 20, 0, 0, 0, none, .ambient, false⟩

end Sys2Proof.Machine
end

