-- ==== Sys2Proof/Machine/Holds.lean ====
section
/-! DEFINITION. The hold serial and the building of HOLD frames (R149), and the local checks of automatic holds
(R154). -/

namespace Sys2Proof.Machine

/-- An own HOLD with a serial stands in the Send Queue or waits as an offer (R149). -/
def isHoldSerial (sn : BitVec 8) : FrameBody → Bool
  | .hold s .. => s == sn
  | _ => false

/-- A serial is in use (R149). -/
def serialInUse (v : View) (b : Blocks) (sn : BitVec 8) : Bool :=
  (v.rep.holds.any fun h => h.origin == v.id && h.serial == sn)
    || (b.lc.queue.any fun e => isHoldSerial sn e.body) || b.lc.waiting.any fun e => isHoldSerial sn e.body

/-- The first serial not in use, counting up from `sn` modulo 256, within `fuel` values (R149). -/
def freeSerial (v : View) (b : Blocks) : Nat → BitVec 8 → BitVec 8
  | 0, sn => sn
  | fuel + 1, sn => if serialInUse v b sn then freeSerial v b fuel (sn + 1) else sn

/-- The serial the next HOLD of this station takes (R149). -/
def nextSerial (v : View) (b : Blocks) : BitVec 8 := freeSerial v b 256 b.cli.serial

/-- A HOLD built with the next serial and offered; the hold serial becomes one more than it (R149). -/
def enqueueHold (v : View) (owner : Owner) (host : Bool) (t : HoldTarget) (l : Level) (r : Reason) (b : Blocks) :
    Blocks :=
  let sn := nextSerial v b
  offer (.hold sn t l r) allStations owner host { b with cli := { b.cli with serial := sn + 1 } }

def isHoldOn (t : HoldTarget) : FrameBody → Bool
  | .hold _ u _ _ => u == t
  | _ => false

/-- An own HOLD with a scope and target stands, waits or is pending (R151, R154). -/
def ownHoldOn (b : Blocks) (t : HoldTarget) : Bool :=
  b.lc.standing (isHoldOn t) || (b.iw.pendingHolds.any fun p => p.target == t)
    || b.du.pendingHolds.any fun p => p.target == t

/-- The owning block of an automatic hold: the DU for COUNT, the IW for the others (Table 1.1, R154). -/
def holdOwner : Reason → Owner
  | .count => .du
  | .host => .cli
  | _ => .iw

/-- An automatic hold kept pending by its owning block (R154). -/
def keepPending (p : PendingHold) (b : Blocks) : Blocks :=
  if p.reason == .count then { b with du := { b.du with pendingHolds := b.du.pendingHolds ++ [p] } }
  else { b with iw := { b.iw with pendingHolds := b.iw.pendingHolds ++ [p] } }

/-- The local checks of an automatic hold, in their order: state, duplicate, Hold List (R154). -/
def autoHold (v : View) (t : HoldTarget) (l : Level) (r : Reason) (b : Blocks) : Blocks :=
  if !acceptsFrames b.station then keepPending ⟨t, l, r⟩ b
  else if v.rep.heldAs t || ownHoldOn b t then b
  else if Config.maxHolds ≤ v.rep.holds.length then raise (.holdLost t l r none) b
  else enqueueHold v (holdOwner r) false t l r b

/-- Pending holds put through the checks again, oldest first (R154). -/
def retryHolds (v : View) : List PendingHold → Blocks → Blocks
  | [], b => b
  | p :: ps, b => retryHolds v ps (autoHold v p.target p.level p.reason b)

/-- At the first instant the station is neither OFFLINE nor FAULTED, the pending holds of both owners (R154): the
Insertion Watch's, then the Dispatch Unit's. None of them counts as pending in the checks of another, so the oldest of one
target is built and a later one dropped (log 19). -/
def retryPendingHolds (v : View) (b : Blocks) : Blocks :=
  let ps := b.iw.pendingHolds ++ b.du.pendingHolds
  retryHolds v ps { b with iw := { b.iw with pendingHolds := [] }, du := { b.du with pendingHolds := [] } }

/-- The hold serial at entry to ACTIVE after a catch-up: one more, modulo 256, than the highest serial of an own hold
in the replica, or 0 (R74). -/
def serialAfterCatchUp (v : View) : BitVec 8 :=
  match (v.rep.holds.filter fun h => h.origin == v.id).map fun h => h.serial.toNat with
  | [] => 0
  | x :: xs => BitVec.ofNat 8 (xs.foldl max x + 1)

end Sys2Proof.Machine
end

