-- ==== Sys2Proof/Machine/Cede.lean ====
section
/-! DEFINITION. Giving a step back (R94, R95): cede causes set, cleared and owed. -/

namespace Sys2Proof.Machine

/-- The STEP START of a lot step. -/
def isStartOf (lot step : Nat) : FrameBody → Bool
  | .stepStart l k _ => l == lot && k == step
  | _ => false

/-- A CEDE enqueued for a lot step with a share mark, unless one stands (R94, R96). -/
def enqueueCede (lot step : Nat) (host : Bool) (b : Blocks) : Blocks :=
  if b.lc.standing (· == .cede lot step) then b else offer (.cede lot step) allStations .du host b

/-- A READY head whose readiness a cede cause has broken is evaluated, and returns to PREPARING (R87, R91). R83 does not
list a cede cause among its events; the evaluation that follows, of every WAITING step too, is log 63's. -/
def dueIfReady (e : QueueEntry) (b : Blocks) : Blocks := if e.phase == .ready then markDue b else b

/-- The cause after an event of R94: an earlier one is replaced by LOAD, KIT, HOST and LEAVE and kept against HOLD. -/
def mergeCause (old : Option CedeCause) (new : CedeCause) : CedeCause :=
  match old with
  | some c => if new == .hold then c else new
  | none => new

/-- An event of R94 for an entry: in WON, PREPARING or READY the cause is set, a CEDE is enqueued for a first cause,
with host share for cause HOST, and a READY head's queued STEP START is withdrawn. -/
def setCede (c : CedeCause) (lot step : Nat) (b : Blocks) : Blocks :=
  match b.du.entry? lot step with
  | some e =>
    if beforeRun e.phase then
      let b := updateEntry lot step (fun e => { e with cede := some (mergeCause e.cede c) }) b
      let b := dueIfReady e (if e.phase == .ready then withdrawAll (isStartOf lot step) b else b)
      if e.cede.isNone then enqueueCede lot step (c == .host) b else b
    else b
  | none => b

/-- An event of R94 for several entries, head first. -/
def setCedes (c : CedeCause) : List QueueEntry → Blocks → Blocks
  | [], b => b
  | e :: es, b => setCedes c es (setCede c e.lot e.step b)

/-- A cede cause cleared and its queued CEDE withdrawn; the entry resumes, so the requests of R90 are to be made
afresh (R95). -/
def clearCede (c : CedeCause) (lot step : Nat) (b : Blocks) : Blocks :=
  withdrawFrame (.cede lot step)
    (updateEntry lot step (fun e => if e.cede == some c then { e with cede := none, asked := false } else e) b)

/-- A CEDE that is owed but not standing is enqueued while the station accepts frames, with internal share: no CEDE
request enqueues it (R8, R95, log 39). -/
def oweCedes : List QueueEntry → Blocks → Blocks
  | [], b => b
  | e :: es, b =>
    oweCedes es (match e.cede with
      | some _ => if acceptsFrames b.station then enqueueCede e.lot e.step false b else b
      | none => b)

/-- Cede cause HOLD set on a covered entry, or cleared on one no hold covers any longer (R94, R95). An entry whose own
CEDE has been heard while reconcile waits has been given back: the hold owes no second CEDE for it (log 59). -/
def holdCede (v : View) (e : QueueEntry) (b : Blocks) : Blocks :=
  if entryCovered v b e then
    if beforeRun e.phase && e.cede.isNone && e.left != some .ceded then setCede .hold e.lot e.step b else b
  else if e.cede == some .hold then clearCede .hold e.lot e.step b
  else b

def holdCedes (v : View) : List QueueEntry → Blocks → Blocks
  | [], b => b
  | e :: es, b => holdCedes v es (holdCede v e b)

end Sys2Proof.Machine
end

