-- ==== Sys2Proof/Machine/HandlerRecord.lean ====
section
/-! DEFINITION. The Handler Record's work toward a kit (R103 to R105), the give list (R107) and the agreement with the
replica (R110). -/

namespace Sys2Proof.Machine

def setRequest (r : Option KitRequest) (b : Blocks) : Blocks := { b with hr := { b.hr with request := r } }

/-- The fitted-kit record written: an event of R83 (R102). -/
def setFitted (k : Option Nat) (b : Blocks) : Blocks := markDue { b with hr := { b.hr with fitted := k } }

/-- The band state written: an event of R83 (R102), also where a BAND CHANGE writes the values it has (log 63). -/
def setBand (band : Band) (stable : Bool) (b : Blocks) : Blocks :=
  markDue { b with hr := { b.hr with band := band, stable := stable } }

def isKitTake : FrameBody → Bool
  | .kitTake _ => true
  | _ => false

/-- A kit request ends: its queued KIT TAKE, if one stands, is withdrawn, whatever its phase (R105). A station queues
no other KIT TAKE. -/
def endRequest (b : Blocks) : Blocks :=
  match b.hr.request with
  | some _ => withdrawAll isKitTake (setRequest none b)
  | none => b

/-- The lowest-ID kit of a family AT this station that is usable and not on the give list (R103, case 2). -/
def kitHere (v : View) (b : Blocks) (family : Nat) : Option Nat :=
  (v.rep.kits.find? fun k => kitServes v.rep family (.at v.id) k && !b.hr.gives.contains k.kit).map KitRec.kit

/-- The lowest-ID kit of a family on SHELF that is usable and not in the tried set (R103, case 3). -/
def kitOnShelf (v : View) (family : Nat) (tried : List Nat) : Option Nat :=
  (v.rep.kits.find? fun k => kitServes v.rep family .shelf k && !tried.contains k.kit).map KitRec.kit

/-- The phase becomes REMOVAL and KIT NEEDED names the fitted kit to remove (R103, R106). -/
def needRemoval (r : KitRequest) (k : Nat) (b : Blocks) : Blocks :=
  raise (.kitNeeded r.lot r.step r.family (some k) none)
    (setRequest (some { r with phase := .removal, candidate := none }) b)

/-- The phase becomes FITTING and KIT NEEDED names the kit to fit (R103, R104). -/
def needFitting (r : KitRequest) (k : Nat) (b : Blocks) : Blocks :=
  raise (.kitNeeded r.lot r.step r.family none (some k))
    (setRequest (some { r with phase := .fitting, candidate := some k }) b)

/-- The phase becomes TAKING and a KIT TAKE is enqueued (R103). -/
def startTaking (r : KitRequest) (k : Nat) (b : Blocks) : Blocks :=
  offer (.kitTake k) allStations .hr false
    (setRequest (some { r with phase := .taking, candidate := some k }) b)

/-- The HR chooses for a request (R103): a usable fitted kit ends it; a fitted kit in the way; a kit already here; a
kit on the shelf unless ISOLATED; else no kit, which is cede cause KIT for the entry. -/
def chooseKit (v : View) (r : KitRequest) (b : Blocks) : Blocks :=
  if (usableFitted v b.hr r.family).isSome then endRequest b
  else
    match b.hr.fitted with
    | some k => needRemoval r k b
    | none =>
      match kitHere v b r.family with
      | some k => needFitting r k b
      | none =>
        match (if b.station == .isolated then none else kitOnShelf v r.family r.tried) with
        | some k => startTaking r k b
        | none => setCede .kit r.lot r.step (endRequest b)

/-- The Dispatch Unit asks for a kit for the head (R103). -/
def askKit (v : View) (lot step family : Nat) (b : Blocks) : Blocks :=
  match b.hr.request with
  | some r =>
    if r.lot == lot && r.step == step then b
    else chooseKit v ⟨lot, step, family, .removal, none, []⟩ (endRequest b)
  | none => chooseKit v ⟨lot, step, family, .removal, none, []⟩ b

/-- The candidate joins the tried set and the HR chooses again (R104). -/
def tryNext (v : View) (r : KitRequest) (k : Nat) (b : Blocks) : Blocks :=
  chooseKit v { r with tried := r.tried ++ [k] } b

/-- A request ends when the entry it serves has left the queue, is no longer the head, or has a cede cause (R105). A fitted
kit that comes to be usable by a change of the floor ends none (log 54). -/
def upkeepRequest (b : Blocks) : Blocks :=
  match b.hr.request with
  | some r =>
    match b.du.queue with
    | h :: _ => if h.lot == r.lot && h.step == r.step && h.cede.isNone then b else endRequest b
    | [] => endRequest b
  | none => b

/-- The request that stands in TAKING for a kit. -/
def takingFor (b : Blocks) (k : Nat) : Option KitRequest :=
  match b.hr.request with
  | some r => if r.phase == .taking && r.candidate == some k then some r else none
  | none => none

/-- A KIT GIVE enqueued for a kit on the give list, unless one stands (R107). -/
def enqueueGive (k : Nat) (b : Blocks) : Blocks :=
  if b.lc.standing (· == .kitGive k) then b else offer (.kitGive k) allStations .hr false b

/-- A kit joins the give list with its KIT GIVE (R104, R107). -/
def giveBack (k : Nat) (b : Blocks) : Blocks :=
  if b.hr.gives.contains k then b
  else enqueueGive k { b with hr := { b.hr with gives := b.hr.gives ++ [k] } }

/-- A kit leaves the give list (R106, R107). -/
def dropGive (k : Nat) (b : Blocks) : Blocks :=
  { b with hr := { b.hr with gives := b.hr.gives.filter fun g => g != k } }

/-- For each kit on the give list that has no GIVE standing, one is enqueued (R107). -/
def enqueueGives : List Nat → Blocks → Blocks
  | [], b => b
  | k :: ks, b => enqueueGives ks (enqueueGive k b)

/-- A KIT TAKE that SEND FAILED is offered again (R104). -/
def reofferTake (b : Blocks) : Blocks :=
  match b.hr.request with
  | some r =>
    match r.phase, r.candidate with
    | .taking, some k =>
      if b.lc.standing (· == .kitTake k) then b else offer (.kitTake k) allStations .hr false b
    | _, _ => b
  | none => b

/-- A kit is AT this station in the replica. -/
def kitAtHere (v : View) (k : Nat) : Bool :=
  match v.rep.kit? k with
  | some rec => rec.location == .at v.id
  | none => false

/-- The agreement of the Handler Record with the replica at entry to ACTIVE (R110). A KIT GIVE that stands for a kit
pruned from the give list is left to its revalidation (R107, log 41), and a request in REMOVAL stands (log 54). -/
def agreeWithReplica (v : View) (b : Blocks) : Blocks :=
  let b := match b.hr.fitted with
    | some k =>
      if kitAtHere v k then b
      else raise (.kitMismatch k ((v.rep.kit? k).map KitRec.location)) (setFitted none b)
    | none => b
  let b := { b with hr := { b.hr with gives := b.hr.gives.filter (kitAtHere v) } }
  match b.hr.request with
  | some r =>
    match r.phase, r.candidate with
    | .fitting, some k => if kitAtHere v k then b else chooseKit v r b
    | _, _ => b
  | none => b

end Sys2Proof.Machine
end

