-- ==== Sys2Proof/Machine/InsertionGate.lean ====
section
/-! DEFINITION. The gate (R132, R133), GO (R136), and the Insertion Watch's answers to the Dispatch Unit's reports
(R134, R147). -/

namespace Sys2Proof.Machine

/-- GO and EN1 to EN8 released. -/
def releaseGo (w : InsertionWatch) : InsertionWatch := { w with go := false, en := 0 }

/-- The mask bit of site `n` (log 33). -/
def siteBit (n : Nat) : SiteMask := BitVec.ofNat 8 (2 ^ (n - 1))

/-- A site is in a mask. -/
def inMask (m : SiteMask) (n : Nat) : Bool := 1 ≤ n && m.getLsbD (n - 1)

/-- The mask of a list of sites. -/
def maskOf (ns : List Nat) : SiteMask := ns.foldl (fun m n => m ||| siteBit n) 0

/-- Occupancy at unconfigured sites dropped (R135). -/
def configuredMask (v : View) (m : SiteMask) : SiteMask :=
  maskOf (siteNumbers.filter fun n => n ≤ v.cfg.siteCount && inMask m n)

/-- The units of the step that remain (R136). -/
def StepCounters.remaining (c : StepCounters) : Nat := c.entered - c.tested - c.lost

/-- The enabled set for an occupancy mask: occupied ENABLED configured sites, the lowest-numbered as many as remain
(R136). -/
def enabledSet (v : View) (w : InsertionWatch) (m : SiteMask) : List Nat :=
  (siteNumbers.filter fun n => inMask m n && siteEnabled v w n).take w.counters.remaining

/-- GO issued for an occupancy mask, or HANDLER PROTOCOL NO_SITE (R136). -/
def issueGo (v : View) (m : SiteMask) (b : Blocks) : Blocks :=
  let set := enabledSet v b.iw m
  if set.isEmpty then raise (.noSite m) { b with iw := { b.iw with insertion := .idle } }
  else
    { b with iw := { b.iw with
        insertion := .inTest (maskOf set) (v.cfg.insertionTimeout * 1000), go := true, en := maskOf set } }

/-- The gate opens: HALT is released and a recorded mask is sent to test (R133, R135). -/
def openGate (v : View) (b : Blocks) : Blocks :=
  let b := { b with iw := { b.iw with gate := true, halt := false } }
  match b.iw.insertion with
  | .waitingGate m => issueGo v m b
  | _ => b

/-- The gate closes: GO is released, and HALT is asserted over an insertion in test (R132, R133, R137). -/
def closeGateIw (w : InsertionWatch) : InsertionWatch :=
  match w.insertion with
  | .inTest _ _ => { releaseGo w with gate := false, halt := true }
  | _ => { releaseGo w with gate := false }

def closeGate (b : Blocks) : Blocks := { b with iw := closeGateIw b.iw }

/-- The evaluation of the gate (R132). -/
def evaluateGate (v : View) (b : Blocks) : Blocks :=
  if gateConditions v b then
    if b.iw.gate then b else openGate v b
  else if b.iw.gate then closeGate b else b

/-- The RUNNING or ENDING head has been removed or orphaned: the gate closes and HALT is asserted at once (R147). -/
def haltStep (b : Blocks) : Blocks := { b with iw := { releaseGo b.iw with gate := false, halt := true } }

/-- An own STEP START has taken effect (R134): the Step Counters start with the entered count and the pass set of the
step in the replica, the Yield Window is emptied. The gate is evaluated at the end of the command. They start so while
the insertion of a removed step is still in test, too, and then count its units (log 42). -/
def startCount (v : View) (lot step kit : Nat) (b : Blocks) : Blocks :=
  match v.rep.step? lot step with
  | some s =>
    { b with iw := { b.iw with
        counters := ⟨some lot, step, s.state.entered, 0, 0, 0, 0, 0, false, s.spec.passBins, kit⟩, window := [] } }
  | none => b

/-- The insertion state is IN TEST. -/
def InsertionWatch.inTest (w : InsertionWatch) : Bool :=
  match w.insertion with
  | .inTest _ _ => true
  | _ => false

end Sys2Proof.Machine
end

