-- ==== Sys2Proof/Machine/DispatchUnit.lean ====
section
/-! DEFINITION. The Dispatch Unit's evaluation (R83 to R85, R90, R91, R94, R95), reconcile (R88), and the Refusal List
(R99). -/

namespace Sys2Proof.Machine

/-! ### Deference -/

/-- A BID for a step, with internal share (R85). -/
def enqueueBid (lot step : Nat) (b : Blocks) : Blocks := offer (.bid lot step) allStations .du false b

/-- A deference timer started with the duration of R84; a duration of 0 expires at once, and the step, eligible at
this instant, is bid for (R84, R85). -/
def startDeference (v : View) (l : LotRec) (step : Nat) (s : StepRec) (b : Blocks) : Blocks :=
  let d := deferenceMs v b s.spec
  if d = 0 then enqueueBid l.lot step b
  else { b with du := { b.du with timers := b.du.timers ++ [⟨l.lot, step, d⟩] } }

/-- The deference timer of a lot step runs. -/
def DispatchUnit.deferring (d : DispatchUnit) (lot step : Nat) : Bool :=
  d.timers.any fun t => t.lot == lot && t.step == step

def stopDeference (lot step : Nat) (b : Blocks) : Blocks :=
  { b with du := { b.du with timers := b.du.timers.filter fun t => !(t.lot == lot && t.step == step) } }

/-- One WAITING step evaluated by the state of its timer (R83). -/
def deferStep (v : View) (l : LotRec) (step : Nat) (s : StepRec) (b : Blocks) : Blocks :=
  if b.du.deferring l.lot step then
    if eligible v b l s then b else stopDeference l.lot step b
  else if b.lc.hasBid l.lot step then b
  else if eligible v b l s then startDeference v l step s b
  else b

/-- The steps of one plan, from step number `k` on. -/
def deferSteps (v : View) (l : LotRec) : Nat → List StepRec → Blocks → Blocks
  | _, [], b => b
  | k, s :: ss, b =>
    deferSteps v l (k + 1) ss (if s.state.isWaiting then deferStep v l k s b else stopDeference l.lot k b)

/-- The WAITING steps of the replica, lots by ascending ID (log 18). -/
def deferLots (v : View) : List LotRec → Blocks → Blocks
  | [], b => b
  | l :: ls, b => deferLots v ls (deferSteps v l 1 l.plan b)

/-- Every WAITING step evaluated; a timer whose step is no longer in the replica stops (R83). -/
def evaluateDeference (v : View) (b : Blocks) : Blocks :=
  deferLots v v.rep.lots
    { b with du := { b.du with timers := b.du.timers.filter fun t => (v.rep.step? t.lot t.step).isSome } }

/-! ### Preparing and starting the head -/

/-- The kit needed of an entry: the family while the fitted kit is not usable for the step (R87); absent where the replica
shows the entry's step no longer (log 56). -/
def kitNeededOf (v : View) (b : Blocks) (e : QueueEntry) : Option Nat :=
  match v.rep.step? e.lot e.step with
  | some s => if (usableFitted v b.hr s.spec.family).isSome then none else some s.spec.family
  | none => none

/-- The band needed of an entry: the band while the band state is not STABLE at it (R87); absent where the replica shows
the entry's step no longer (log 56). -/
def bandNeededOf (v : View) (b : Blocks) (e : QueueEntry) : Option Band :=
  match v.rep.step? e.lot e.step with
  | some s => if b.hr.stable && b.hr.band == s.spec.band then none else some s.spec.band
  | none => none

/-- Band needed has become present for a PREPARING head whose requests are made (R90). -/
def bandAgain (b : Blocks) (new : Option Band) (e : QueueEntry) : Bool :=
  b.du.isHead e && e.phase == .preparing && e.asked && e.cede.isNone && e.bandNeeded.isNone && new.isSome

/-- Kit needed and band needed recomputed for one entry (R87). BAND NEEDED is raised again where band needed has become
present (R90), in every station state but JOINING, where no request is made (R101) and the requests are left to be made
afresh (log 40). -/
def computeNeeds (v : View) (e : QueueEntry) (b : Blocks) : Blocks :=
  let band := bandNeededOf v b e
  let kit := kitNeededOf v b e
  let again := bandAgain b band e
  let later := again && b.station == .joining
  let b' := updateEntry e.lot e.step
    (fun e => { e with kitNeeded := kit, bandNeeded := band, asked := e.asked && !later }) b
  match band with
  | some x => raiseIf (again && !later) (.bandNeeded e.lot e.step x) b'
  | none => b'

def computeAllNeeds (v : View) : List QueueEntry → Blocks → Blocks
  | [], b => b
  | e :: es, b => computeAllNeeds v es (computeNeeds v e b)

/-- The requests of R90 for the head: BAND NEEDED to the host, then a kit of the Handler Record. The Load Engine reads the
head's program off the queue (R116), behind both. R90 makes the three in any order; this one is log 65's. -/
def makeRequests (v : View) (e : QueueEntry) (b : Blocks) : Blocks :=
  let b := updateEntry e.lot e.step (fun e => { e with asked := true }) b
  let b := match bandNeededOf v b e with
    | some x => raise (.bandNeeded e.lot e.step x) b
    | none => b
  match kitNeededOf v b e with
  | some family => askKit v e.lot e.step family b
  | none => b

/-- A READY head whose conditions fail returns to PREPARING and its queued STEP START is withdrawn (R91). -/
def fallBack (e : QueueEntry) (b : Blocks) : Blocks :=
  withdrawAll (isStartOf e.lot e.step)
    (updateEntry e.lot e.step (fun e => { e with phase := .preparing, asked := false }) b)

/-- A PREPARING head whose conditions hold becomes READY and its STEP START is enqueued (R91). -/
def makeReady (e : QueueEntry) (b : Blocks) : Blocks :=
  match b.hr.fitted with
  | some k =>
    offer (.stepStart e.lot e.step k) allStations .du false
      (updateEntry e.lot e.step (fun e => { e with phase := .ready }) b)
  | none => b

/-- Something done with the head as the queue then stands. -/
def withHead (f : QueueEntry → Blocks → Blocks) (b : Blocks) : Blocks :=
  match b.du.queue with
  | h :: _ => f h b
  | [] => b

/-- READY falls back (R91). -/
def headFalls (v : View) (h : QueueEntry) (b : Blocks) : Blocks :=
  if h.phase == .ready && !ready v b h then fallBack h b else b

/-- A WON head enters PREPARING while the station works and no cede cause stands (R90). -/
def headEnters (h : QueueEntry) (b : Blocks) : Blocks :=
  if h.phase == .won && isWorking b.station && h.cede.isNone then
    updateEntry h.lot h.step (fun e => { e with phase := .preparing, asked := false }) b
  else b

/-- The requests of a PREPARING head that are still to be made (R90, R91, R95), in every station state but JOINING
(R101, log 40). -/
def headAsks (v : View) (h : QueueEntry) (b : Blocks) : Blocks :=
  if h.phase == .preparing && b.station != .joining && h.cede.isNone && !h.asked then makeRequests v h b else b

/-- PREPARING becomes READY (R91). -/
def headReady (v : View) (h : QueueEntry) (b : Blocks) : Blocks :=
  if h.phase == .preparing && ready v b h then makeReady h b else b

/-- The entry that has become the head enters PREPARING at that instant (R90). -/
def enterHead (b : Blocks) : Blocks := withHead headEnters b

/-- A head whose cede cause HOLD has been cleared enters PREPARING at that instant (R95), where the fitted kit is the one
that the same evaluation tests it with (R94, log 64). -/
def headResumes (v : View) (b : Blocks) : Blocks := withHead (holdCede v) (enterHead b)

/-- The evaluation of R83: needs, a new head in PREPARING, cede causes HOLD set and cleared, owed CEDEs, the head, and
deference. A head that a hold covers makes no requests at the evaluation that finds it so (R90, R94, log 64). -/
def evaluateDispatch (v : View) (b : Blocks) : Blocks :=
  let b := enterHead (computeAllNeeds v b.du.queue b)
  let b := headResumes v (holdCedes v b.du.queue b)
  let b := oweCedes b.du.queue b
  let b := withHead (headFalls v) b
  let b := withHead (headAsks v) b
  let b := withHead (headReady v) b
  evaluateDeference v b

/-! ### Reconcile (R88) -/

/-- The replica shows an entry's step CLAIMED by or RUNNING at this station. -/
def stillMine (v : View) (e : QueueEntry) : Bool :=
  match v.rep.step? e.lot e.step with
  | some s => s.state.heldBy v.id
  | none => false

/-- The replica shows an entry's step TALLIED at this station. -/
def talliedHere (v : View) (e : QueueEntry) : Bool :=
  match v.rep.step? e.lot e.step with
  | some s => s.state.talliedAt v.id
  | none => false

/-- The cause of CLAIM LOST for a removed entry, none for one that has ended (R88). -/
def lostCause (v : View) (afterCatchUp : Bool) (e : QueueEntry) : Option ClaimLostCause :=
  if talliedHere v e || e.left == some .ended then none
  else if e.orphaned then some .orphaned
  else if afterCatchUp then some .notOwnAfterCatchUp
  else
    match e.left with
    | some .ceded => some .ceded
    | some .withdrawn => some .withdrawn
    | some .shipped => some .shipped
    | _ => some .notOwn

/-- CLAIM LOST raised for a removed entry: at once, with the Step Counters for one that was RUNNING or ENDING, or after
the insertion in test (R88, R147). -/
def reportLost (e : QueueEntry) (c : ClaimLostCause) (b : Blocks) : Blocks :=
  if beforeRun e.phase then raise (.claimLost e.lot e.step c none) b
  else if b.iw.inTest then
    { b with du := { b.du with lostAfterTest := b.du.lostAfterTest ++ [⟨e.lot, e.step, c⟩] } }
  else raise (.claimLost e.lot e.step c (some b.iw.counters)) b

/-- One entry removed: its queued STEP START and CEDE withdrawn, the Insertion Watch told of a RUNNING or ENDING one,
and CLAIM LOST raised where due (R88). -/
def removeEntry (v : View) (afterCatchUp : Bool) (e : QueueEntry) (b : Blocks) : Blocks :=
  let b := markDue { b with du := { b.du with
    queue := b.du.queue.filter fun x => !(x.lot == e.lot && x.step == e.step) } }
  let b := withdrawFrame (.cede e.lot e.step) (withdrawAll (isStartOf e.lot e.step) b)
  let b := if beforeRun e.phase then b else haltStep b
  match lostCause v afterCatchUp e with
  | some c => reportLost e c b
  | none => b

/-- Each entry whose step the replica does not show as this station's is removed (R88); an orphaned one whose step an
installed snapshot shows as this station's again stays (R88 before R89, log 62). -/
def removeLost (v : View) (afterCatchUp : Bool) : List QueueEntry → Blocks → Blocks
  | [], b => b
  | e :: es, b => removeLost v afterCatchUp es (if stillMine v e then b else removeEntry v afterCatchUp e b)

/-- Reconcile (R88); a kit request whose entry has left the queue ends with it (R105). -/
def reconcile (v : View) (afterCatchUp : Bool) (b : Blocks) : Blocks :=
  upkeepRequest (removeLost v afterCatchUp b.du.queue b)

/-! ### Refusals (R99) -/

/-- A pair joins the Refusal List as the newest, over the oldest of 4; a pair already listed keeps its place. -/
def addRefusal (p : Nat × Nat) (rs : List (Nat × Nat)) : List (Nat × Nat) :=
  if rs.contains p then rs
  else if rs.length < Config.maxRefusals then rs ++ [p] else rs.drop 1 ++ [p]

/-- A failed load or verify reported: the pair is refused, and every entry but a RUNNING or ENDING one that needs it
gets cede cause LOAD (R99); not one whose step the replica shows no longer while reconcile waits (log 56). -/
def refusePair (v : View) (p : Nat × Nat) (b : Blocks) : Blocks :=
  let b := markDue { b with du := { b.du with refusals := addRefusal p b.du.refusals } }
  setCedes .load (b.du.queue.filter fun e => entryPair v e == some p) b

end Sys2Proof.Machine
end

