-- ==== Sys2Proof/Machine/LoadEngine.lean ====
section
/-! DEFINITION. The Load Engine's operations: LOAD, VERIFY, SWAP and ABORT begun (R119, R124 to R126), failure (R123),
and the choice of work (R116 to R118). -/

namespace Sys2Proof.Machine

/-- A slot named by a slot byte (Table 12.2). -/
def slotOf : Nat → Option Slot
  | 1 => some .active
  | 2 => some .staged
  | _ => none

def slotCode : Slot → Nat
  | .active => 1
  | .staged => 2

/-- LOAD issued of a step's program into a slot (R119). -/
def issueLoad (v : View) (slot : Slot) (sp : StepSpec) (b : Blocks) : Blocks :=
  let p : SlotProgram := ⟨sp.program, sp.revision, sp.checksum, sp.blocks, 0, 0⟩
  sendDirective (.load slot sp.program sp.revision 0 sp.blocks sp.checksum)
    (setOp (some ⟨.load, some slot, v.cfg.blockTimeout⟩) (setSlot slot ⟨.loading, some p⟩ b))

/-- VERIFY issued for a LOADED slot (R124). -/
def issueVerify (slot : Slot) (b : Blocks) : Blocks :=
  match (b.le.slot slot).prog with
  | some p =>
    sendDirective (.verify slot p.checksum)
      (setOp (some ⟨.verify, some slot, Config.testerMs⟩) (setSlot slot ⟨.verifying, some p⟩ b))
  | none => b

/-- SWAP issued (R125). -/
def issueSwap (b : Blocks) : Blocks := sendDirective .swap (setOp (some ⟨.swap, none, Config.testerMs⟩) b)

/-- The LOAD or VERIFY in flight aborted: a PURGE begins and the slot is LOADING with its program and counts (R126). The
slot set is signalled as a change (R113) also where it was LOADING already (log 57). -/
def abortOp (slot : Slot) (b : Blocks) : Blocks :=
  sendDirective (.abort slot)
    (setOp (some ⟨.purge, some slot, Config.testerMs⟩) (setSlot slot ⟨.loading, (b.le.slot slot).prog⟩ b))

/-- Blocks not loaded of a slot's program (R123): none where more have been confirmed than the image has (log 32). -/
def notLoaded (p : SlotProgram) : Nat := p.expected - p.done

/-- The last good block of a slot's program, absent at 0 blocks done (R123). -/
def lastGood (p : SlotProgram) : Option Nat := if p.done = 0 then none else some (p.done - 1)

/-- A LOAD or a VERIFY fails (R123): the operation ends, the slot is FAILED, LOAD FAILED is raised, and the pair is
reported to the Dispatch Unit (R99). -/
def failOp (v : View) (slot : Slot) (c : LoadFailedCause) (b : Blocks) : Blocks :=
  match (b.le.slot slot).prog with
  | some p =>
    let b := setSlot slot ⟨.failed, some p⟩ (setOp none b)
    let b := raise (.loadFailed p.program p.revision slot c (notLoaded p) (lastGood p)) b
    refusePair v (p.program, p.revision) b
  | none => setOp none b

/-- The step record of an entry in the replica. -/
def entryStep (v : View) (e : QueueEntry) : Option StepRec := v.rep.step? e.lot e.step

/-- Some step is RUNNING at this station in the replica (R117). -/
def runningHere (v : View) : Bool := v.rep.lots.any fun l => l.plan.any fun s => s.state.runningAt v.id

/-- The abort of R126, when the operation in flight is a LOAD or VERIFY whose pair is held or not wanted. -/
def abortUnwanted (v : View) (b : Blocks) : Blocks :=
  match b.le.op with
  | some op =>
    match op.kind, op.slot with
    | .load, some slot | .verify, some slot =>
      match (b.le.slot slot).pair? with
      | some p => if v.rep.pairHeld p || !wanted v b p then abortOp slot b else b
      | none => b
    | _, _ => b
  | none => b

/-- R117: the operation for the head's program, none when the rule gives no operation. -/
def headWork (v : View) (b : Blocks) : Option (Blocks → Blocks) :=
  match b.du.queue with
  | h :: _ =>
    if isWorking b.station && (h.phase == .preparing || h.phase == .ready) && h.cede.isNone then
      match entryStep v h with
      | some s =>
        let p := s.spec.pair
        if v.rep.pairHeld p then none
        else if b.le.active.holds .verified p then none
        else if b.le.active.holds .loaded p then some (issueVerify .active)
        else if b.le.staged.holds .verified p then (if readyButSlot v b h then some issueSwap else none)
        else if b.le.staged.holds .loaded p then some (issueVerify .staged)
        else if b.le.active.presents p || b.le.staged.presents p then none
        else if runningHere v then none
        else some (issueLoad v .active s.spec)
      | none => none
    else none
  | [] => none

/-- A slot is LOADED with a pair that is wanted and not held (R118, case 1). -/
def verifiable (v : View) (b : Blocks) (r : SlotRec) : Bool :=
  r.state == .loaded && match r.pair? with
    | some p => wanted v b p && !v.rep.pairHeld p
    | none => false

/-- STAGED may take a staging load (R118, case 2). -/
def stagedFree (v : View) (b : Blocks) : Bool :=
  match b.le.staged.state with
  | .unknown => true
  | .empty => true
  | .failed => true
  | .loaded | .verified =>
    match b.le.staged.pair? with
    | some p => !wanted v b p
    | none => true
  | _ => false

/-- The first entry behind the head whose program is missing (R118, case 2). -/
def missing (v : View) (b : Blocks) (e : QueueEntry) : Bool :=
  e.cede.isNone && match entryPair v e with
    | some p => !v.rep.pairHeld p && !b.le.active.presents p && !b.le.staged.presents p
    | none => false

/-- R118: the work on the entries behind the head. -/
def behindWork (v : View) (b : Blocks) : Option (Blocks → Blocks) :=
  if isWorking b.station then
    if verifiable v b b.le.active then some (issueVerify .active)
    else if verifiable v b b.le.staged then some (issueVerify .staged)
    else
      match (b.du.queue.drop 1).find? (missing v b) with
      | some e =>
        if stagedFree v b then (entryStep v e).map fun s => issueLoad v .staged s.spec else none
      | none => none
  else none

/-- A new operation chosen when none is in flight: R117, else R118 (R116). -/
def chooseWork (v : View) (b : Blocks) : Blocks :=
  match b.le.op with
  | some _ => b
  | none =>
    match headWork v b with
    | some f => f b
    | none =>
      match behindWork v b with
      | some f => f b
      | none => b

/-- The Load Engine's evaluation (R116). -/
def evaluateLoad (v : View) (b : Blocks) : Blocks := chooseWork v (abortUnwanted v b)

end Sys2Proof.Machine
end

