-- ==== Sys2Proof/Machine/Settle.lean ====
section
/-! DEFINITION. The evaluations that follow a change, in the order R39 and R74 list the blocks, until no event of R83 is
left (log 4). -/

namespace Sys2Proof.Machine

/-- The Dispatch Unit's evaluation when one is due (R83). -/
def evaluateIfDue (v : View) (b : Blocks) : Blocks :=
  if b.du.evalDue then evaluateDispatch v { b with du := { b.du with evalDue := false } } else b

/-- One round: Dispatch Unit, the kit request, Load Engine, gate. -/
def settleRound (v : View) (b : Blocks) : Blocks :=
  evaluateGate v (evaluateLoad v (upkeepRequest (evaluateIfDue v b)))

/-- Rounds while an evaluation is due, at least one and at most `n` (log 4). -/
def settleRounds (v : View) : Nat → Blocks → Blocks
  | 0, b => b
  | n + 1, b =>
    let b := settleRound v b
    if b.du.evalDue then settleRounds v n b else b

/-- The evaluations to their end. -/
@[irreducible] def settle (v : View) (b : Blocks) : Blocks := settleRounds v 16 b

end Sys2Proof.Machine
end

