-- ==== Sys2Proof/Machine/Release.lean ====
section
/-! DEFINITION. The release check and its records (R163 to R169). -/

namespace Sys2Proof.Machine

def isShipOf (lot : Nat) : FrameBody → Bool
  | .ship l _ => l == lot
  | _ => false

/-- The release record of a lot. -/
def DispatchUnit.release? (d : DispatchUnit) (lot : Nat) : Option ReleaseRec := d.releases.find? fun r => r.lot == lot

def setReleases (rs : List ReleaseRec) (b : Blocks) : Blocks := { b with du := { b.du with releases := rs } }

/-- A release record changed. -/
def updateRelease (lot : Nat) (f : ReleaseRec → ReleaseRec) (b : Blocks) : Blocks :=
  setReleases (b.du.releases.map fun r => if r.lot == lot then f r else r) b

/-- The replica shows a lot COMPLETE with release owner this station (R163). -/
def ownsComplete (v : View) (lot : Nat) : Bool :=
  match v.rep.lot? lot with
  | some l => l.ownedBy v.id
  | none => false

/-- Records whose lot is no longer COMPLETE and owned here removed, a standing SHIP withdrawn with them (R163). -/
def pruneReleases (v : View) : List ReleaseRec → Blocks → Blocks
  | [], b => b
  | r :: rs, b =>
    pruneReleases v rs
      (if ownsComplete v r.lot then b
       else
         let b := setReleases (b.du.releases.filter fun x => x.lot != r.lot) b
         if r.shipStanding then withdrawAll (isShipOf r.lot) b else b)

/-- The record of an owned COMPLETE lot created with its marks no, unless there is one (R163). -/
def ensureRelease (lot : Nat) (b : Blocks) : Blocks :=
  match b.du.release? lot with
  | some _ => b
  | none => setReleases (b.du.releases ++ [⟨lot, false, false, false⟩]) b

/-- The COUNT hold, called for once by a record (R166). -/
def countHold (v : View) (lot : Nat) (b : Blocks) : Blocks :=
  match b.du.release? lot with
  | some r =>
    if r.countHoldRaised then b
    else autoHold v (.lot lot) .quality .count (updateRelease lot (fun r => { r with countHoldRaised := true }) b)
  | none => b

/-- A SHIP enqueued with the last step's pass, unless one stands (R165). -/
def enqueueShip (l : LotRec) (b : Blocks) : Blocks :=
  match b.du.release? l.lot with
  | some r =>
    if r.shipStanding then b
    else offer (.ship l.lot l.shipQuantity) allStations .du false
      (updateRelease l.lot (fun r => { r with shipStanding := true }) b)
  | none => b

/-- RELEASE WAITING raised once while its condition does not change (R165). -/
def releaseWaiting (lot : Nat) (b : Blocks) : Blocks :=
  match b.du.release? lot with
  | some r =>
    raiseIf (!r.waitingReported) .releaseWaiting (updateRelease lot (fun r => { r with waitingReported := true }) b)
  | none => b

def notWaiting (lot : Nat) (b : Blocks) : Blocks := updateRelease lot (fun r => { r with waitingReported := false }) b

/-- The release check of one lot that is COMPLETE with release owner this station (R165). -/
def checkOwned (v : View) (l : LotRec) (b : Blocks) : Blocks :=
  let b := ensureRelease l.lot b
  if !lossAllowed l then countHold v l.lot (notWaiting l.lot b)
  else if l.suspended || v.rep.coveredLot l then notWaiting l.lot b
  else if confirmedOk l then enqueueShip l (notWaiting l.lot b)
  else releaseWaiting l.lot b

/-- The release check of one lot, in the station states that run it (R164, R165). -/
def releaseCheck (v : View) (lot : Nat) (b : Blocks) : Blocks :=
  if isWorking b.station then
    let b := pruneReleases v b.du.releases b
    match v.rep.lot? lot with
    | some l => if l.ownedBy v.id then checkOwned v l b else b
    | none => b
  else b

def checkLots (v : View) : List LotRec → Blocks → Blocks
  | [], b => b
  | l :: ls, b => checkLots v ls (if l.ownedBy v.id then checkOwned v l b else b)

/-- The release check of every lot this station owns (R164). -/
def releaseChecks (v : View) (b : Blocks) : Blocks :=
  if isWorking b.station then checkLots v v.rep.lots (pruneReleases v b.du.releases b) else b

end Sys2Proof.Machine
end

