-- ==== Sys2Proof/Machine/Leaving.lean ====
section
/-! DEFINITION. What the owners do when a queued frame of theirs ends unsent: SEND FAILED (R9, R17, R18) and INVALID
(R12), the end of a serve session (R70), and the LEAVE sequence abandoned or complete (R34). -/

namespace Sys2Proof.Machine

def isSnap : FrameBody → Bool
  | .snapBegin .. => true
  | .snapEntry .. => true
  | .snapEnd .. => true
  | _ => false

/-- The serve session ends: its queued SNAP frame is withdrawn, the Snapshot Copy emptied (R70). -/
def endSession (b : Blocks) : Blocks :=
  match b.cu.session with
  | some _ => withdrawAll isSnap { b with cu := { b.cu with session := none, copy := .empty } }
  | none => b

/-- The failed condition of an invalid or ineffective POST (R79): the lot ID present before the floor full (log 55). -/
def postCause (r : Replica) (lot : Nat) : PostFailedCause :=
  if (r.lot? lot).isSome then .duplicate else .floorFull

/-- The HOLD's owner is told SEND FAILED: a host HOLD is reported, with its hold ID (log 33), an automatic one becomes
pending (R153, R154). -/
def holdSendFailed (v : View) (sn : BitVec 8) (t : HoldTarget) (l : Level) (r : Reason) (b : Blocks) : Blocks :=
  match r with
  | .host => raise (.holdFailed v.id sn .sendFailed) b
  | .count => keepPending ⟨t, l, .count⟩ b
  | .yield => keepPending ⟨t, l, .yield⟩ b
  | .contact => keepPending ⟨t, l, .contact⟩ b
  | .sites => keepPending ⟨t, l, .sites⟩ b
  | .timeout => keepPending ⟨t, l, .timeout⟩ b

/-- An entry's STEP START has gone: it returns to PREPARING, if it remains (R92). R83 does not list this among its events;
that an evaluation follows is log 63's. -/
def startGone (lot step : Nat) (b : Blocks) : Blocks :=
  markDue (updateEntry lot step
    (fun e => if e.phase == .ready then { e with phase := .preparing, asked := false } else e) b)

/-- The owner of a frame is told SEND FAILED; the notices carry what they carry with their other causes (log 33). -/
def sendFailed (v : View) (body : FrameBody) (b : Blocks) : Blocks :=
  match body with
  | .hold sn t l r => holdSendFailed v sn t l r b
  | .lift o sn => raise (.liftFailed o sn .sendFailed) b
  | .ship lot _ => updateRelease lot (fun r => { r with shipStanding := false }) b
  | .stepStart lot k _ => startGone lot k b
  | .stepTally .. => { b with iw := { b.iw with tallyOwed := some body } }
  | .bid _ _ => markDue b
  | .resume _ => raise (.resumeFailed .sendFailed) b
  | .withdraw lot => raise (.withdrawFailed lot .sendFailed) b
  | .post p => raise (.postFailed p.lot .sendFailed) b
  | .kitAdd k _ _ => raise (.kitFailed .add k .sendFailed) b
  | .kitFound k => raise (.kitFailed .found k .sendFailed) b
  | .kitServiced k => raise (.kitFailed .serviced k .sendFailed) b
  | .kitRetire k => raise (.kitFailed .retire k .sendFailed) b
  | .snapBegin .. => endSession b
  | .snapEntry .. => endSession b
  | .snapEnd .. => endSession b
  -- an ORPHAN is forgotten (R31); a CEDE stays owed (R95), a TAKE and a GIVE stay with the HR (R104, R107); a REQ ends
  -- with its attempt (R61), a DEFER and a BEACON are lost
  | _ => b

def sendFailedAll (v : View) : List SendEntry → Blocks → Blocks
  | [], b => b
  | e :: es, b => sendFailedAll v es (sendFailed v e.body b)

/-- The Send Queue emptied and every waiting offer answered: each owner is told SEND FAILED (R9, R17, R18). -/
def emptySendQueue (v : View) (b : Blocks) : Blocks :=
  let es := b.lc.queue.filter (fun e => !e.removal) ++ b.lc.waiting
  sendFailedAll v es { b with lc := { b.lc with queue := [], waiting := [] } }

/-! ### LEAVE -/

/-- The entries with cede cause LEAVE resume, and their queued CEDEs are withdrawn (R101). An entry whose cause a CEDE
request has made HOST meanwhile keeps it and its CEDE (R34, log 52). -/
def clearLeaveCauses : List QueueEntry → Blocks → Blocks
  | [], b => b
  | e :: es, b => clearLeaveCauses es (if e.cede == some .leave then clearCede .leave e.lot e.step b else b)

/-- The LEAVE sequence, if one is in progress, is abandoned (R34). -/
def abandonLeave (c : LeaveFailedCause) (b : Blocks) : Blocks :=
  if b.du.leaving then
    let b := markDue { b with du := { b.du with leaving := false } }
    raise (.leaveFailed c) (clearLeaveCauses b.du.queue b)
  else b

/-- The sequence is complete: every CEDE of it has ended, so none is owed any longer, and no own BID is in transmission
(R34). An entry that owes none does not delay it (log 38). -/
def leaveComplete (b : Blocks) : Bool :=
  b.du.leaving && (b.du.queue.all fun e => e.cede.isNone) && !b.lc.bidInTx

/-- The Dispatch Queue is empty at entry to OFFLINE (R129): an entry that owes no CEDE any longer, as a stale one of
ISOLATED, leaves it as at a reconcile (R88, log 38). -/
def emptyDispatchQueue (v : View) (b : Blocks) : Blocks :=
  let b := reconcile v false b
  { b with du := { b.du with queue := [] } }

/-- Entry to OFFLINE by a completed LEAVE sequence (R18, R34, R61, R77, R102, R129, R130, R163). -/
def enterOffline (v : View) (b : Blocks) : Blocks :=
  let b := endRequest (endSession (emptyDispatchQueue v b))
  let b := { b with
    pu := { b.pu with station := .offline, peers := [], beaconTimer := none, listenTimer := none,
                      parkTimer := none, listenWait := false }
    cu := .reset
    du := { b.du with timers := [], leaving := false, releases := [] } }
  markDue (raise .left (emptySendQueue v b))

end Sys2Proof.Machine
end

