-- ==== Sys2Proof/Machine/Apply.lean ====
section
/-! DEFINITION. The application of every kind of state frame to a replica (R42, R48 to R60): the whole effect of each,
and whether it took effect. -/

namespace Sys2Proof.Machine

/-- A POST adds its lot (R48). -/
def postable (r : Replica) (p : PostBody) : Bool :=
  (r.lot? p.lot).isNone && r.lots.length < Config.maxLots
    && 1 ≤ p.posted && 1 ≤ p.specs.length && p.specs.length ≤ 6
    && p.specs.all fun s => passSetNonEmpty s.passBins && 1 ≤ s.family

/-- The plan of a new lot: step 1 WAITING with the posted units, every other step PENDING (R48). -/
def newPlan (posted : Nat) : List StepSpec → List StepRec
  | [] => []
  | s :: ss => ⟨s, .waiting posted⟩ :: ss.map fun t => ⟨t, .pending⟩

/-- The lot record a POST creates; the origin station is the sender (R48). -/
def newLot (sender : Nat) (p : PostBody) : LotRec :=
  ⟨p.lot, p.device, p.posted, p.lostAllowance, sender, false, false, none, false, newPlan p.posted p.specs⟩

/-- A BID takes effect: the step is WAITING and its lot not suspended (R49). -/
def biddable (r : Replica) (lot k : Nat) : Bool :=
  match r.lot? lot with
  | some l =>
    match l.step? k with
    | some s => s.state.isWaiting && !l.suspended
    | none => false
  | none => false

/-- The named step is CLAIMED with station the sender (R50, R51). -/
def claimedBy (r : Replica) (lot k sender : Nat) : Bool :=
  match r.step? lot k with
  | some s => s.state.claimedBy sender
  | none => false

/-- A step of the lot set to a state computed from its entered count. -/
def Replica.setStep (r : Replica) (lot k : Nat) (f : Nat → StepState) : Replica :=
  match r.step? lot k with
  | some s => r.updateLot lot fun l => l.setStep k (f s.state.entered)
  | none => r

/-- The conditions of a STEP TALLY (R52). -/
def talliable (r : Replica) (sender lot k kit entered pass fail lost : Nat) : Bool :=
  match r.step? lot k with
  | some s =>
    s.state.runningAt sender && s.state.kit? == some kit && s.state.entered == entered
      && entered == pass + fail + lost
  | none => false

/-- The insertion count raised, holding at its largest value (R44, R52). -/
def raiseCount (n : Nat) (k : KitRec) : KitRec := { k with count := min Config.maxInsertions (k.count + n) }

/-- The next step of the plan opened with the passing units, or the lot given to its release owner (R52). -/
def passOn (sender k pass : Nat) (l : LotRec) : LotRec :=
  if k < l.plan.length then l.setStep (k + 1) (.waiting pass) else { l with releaseOwner := some sender }

/-- The effect of a STEP TALLY that meets its conditions (R52): the lot is spent, or goes on. -/
def applyTally (r : Replica) (sender lot k kit entered pass fail lost insertions : Nat) : Replica :=
  let r := r.updateKit kit (raiseCount insertions)
  if pass = 0 then r.removeLot lot
  else r.updateLot lot fun l =>
    passOn sender k pass (l.setStep k (.tallied sender kit entered pass fail lost insertions))

/-- The cases of R53, the first that holds. -/
inductive HoldCase
  | sameTarget | sameId | shipped | full | appended
  deriving DecidableEq, Repr

/-- A LOT target that has left the Lot Table and stands in the Shipped Ring (R53). -/
def isShippedTarget (r : Replica) : HoldTarget → Bool
  | .lot id => (r.lot? id).isNone && r.ring.contains id
  | _ => false

/-- The case of R53 a HOLD meets. -/
def holdCase (r : Replica) (sender : Nat) (sn : BitVec 8) (t : HoldTarget) : HoldCase :=
  if r.heldAs t then .sameTarget
  else if (r.hold? sender sn).isSome then .sameId
  else if isShippedTarget r t then .shipped
  else if Config.maxHolds ≤ r.holds.length then .full
  else .appended

/-- A LIFT takes effect: the entry is present, and its level is OPERATOR or the sender's authority QUALITY (R54). -/
def liftable (r : Replica) (authority : Level) (origin : Nat) (sn : BitVec 8) : Bool :=
  match r.hold? origin sn with
  | some h => h.level == .operator || authority == .quality
  | none => false

/-- The oldest of 16 IDs is overwritten (R45). -/
def pushRing (id : Nat) (ring : List Nat) : List Nat :=
  if ring.length < Config.maxShipped then ring ++ [id] else ring.drop 1 ++ [id]

/-- The conditions a SHIP CONFLICT names, tested on the lot as it stands before removal (R55). -/
def shipConflicts (r : Replica) (l : LotRec) : ShipConflicts := ⟨!l.complete, r.coveredLot l, l.suspended⟩

/-- The effect of an ORPHAN of station `s` on one step (R58). -/
def orphanStep (s : Nat) (x : StepRec) : StepRec :=
  if x.state.heldBy s then { x with state := .waiting x.state.entered } else x

/-- The effect of an ORPHAN of `s` sent by `sender` on one lot (R58). -/
def orphanLot (s sender : Nat) (l : LotRec) : LotRec :=
  if l.ownedBy s then { l with releaseOwner := some sender, confirmed := false }
  else { l with plan := l.plan.map (orphanStep s)
                suspended := l.suspended || l.plan.any fun x => x.state.runningAt s }

/-- The effect of an ORPHAN of `s` on one kit (R58). -/
def orphanKit (s : Nat) (k : KitRec) : KitRec :=
  if k.location == .at s then { k with location := .stranded s } else k

/-- A kit record that satisfies a condition. -/
def kitIs (r : Replica) (k : Nat) (p : KitRec → Bool) : Bool :=
  match r.kit? k with
  | some rec => p rec
  | none => false

def KitRec.onShelf (k : KitRec) : Bool := k.location == .shelf

def KitRec.isStranded (k : KitRec) : Bool :=
  match k.location with
  | .stranded _ => true
  | _ => false

/-- A KIT ADD takes effect (R59). -/
def kitAddable (r : Replica) (kit family limit : Nat) : Bool :=
  1 ≤ kit && kit ≤ 255 && (r.kit? kit).isNone && r.kits.length < Config.maxKits && 1 ≤ family && 1 ≤ limit

/-- Does a state frame take effect on a replica? (R48 to R60) -/
def takesEffect (r : Replica) (authority : Level) (sender : Nat) : FrameBody → Bool
  | .hold sn t _ _ => holdCase r sender sn t == .appended
  | .lift o sn => liftable r authority o sn
  | .ship lot _ => (r.lot? lot).isSome
  | .stepStart lot k _ => claimedBy r lot k sender
  | .stepTally lot k kit e p f l _ => talliable r sender lot k kit e p f l
  | .orphan s => r.shows s
  | .cede lot k => claimedBy r lot k sender
  | .bid lot k => biddable r lot k
  | .resume lot => (r.lot? lot).isSome
  | .withdraw lot =>
    match r.lot? lot with
    | some l => !l.anyRunning
    | none => false
  | .post p => postable r p
  | .kitAdd k f l => kitAddable r k f l
  | .kitTake k => kitIs r k fun rec => rec.onShelf && !rec.due
  | .kitGive k => kitIs r k fun rec => rec.location == .at sender
  | .kitFound k => kitIs r k KitRec.isStranded
  | .kitServiced k => kitIs r k KitRec.onShelf
  | .kitRetire k => kitIs r k KitRec.onShelf
  | _ => false

/-- The effect of a state frame that takes effect (R48 to R60). Where two entries bear the hold ID of a LIFT, both are
removed, once the level of the older one has let it take effect (R54, log 25). -/
def effectOf (r : Replica) (sender : Nat) : FrameBody → Replica
  | .hold sn t l rs => { r with holds := r.holds ++ [⟨sender, sn, t, l, rs⟩] }
  | .lift o sn => { r with holds := r.holds.filter fun h => !(h.origin == o && h.serial == sn) }
  | .ship lot _ => { r.removeLot lot with ring := pushRing lot r.ring }
  | .stepStart lot k kit => r.setStep lot k (.running sender kit)
  | .stepTally lot k kit e p f l i => applyTally r sender lot k kit e p f l i
  | .orphan s => { r with lots := r.lots.map (orphanLot s sender), kits := r.kits.map (orphanKit s) }
  | .cede lot k => r.setStep lot k .waiting
  | .bid lot k => r.setStep lot k (.claimed sender)
  | .resume lot => r.updateLot lot fun l => { l with suspended := false }
  | .withdraw lot => r.removeLot lot
  | .post p => { r with lots := insertLot (newLot sender p) r.lots }
  | .kitAdd k f l => { r with kits := insertKit ⟨k, f, .shelf, 0, l⟩ r.kits }
  | .kitTake k => r.updateKit k fun rec => { rec with location := .at sender }
  | .kitGive k => r.updateKit k fun rec => { rec with location := .shelf }
  | .kitFound k => r.updateKit k fun rec => { rec with location := .shelf }
  | .kitServiced k => r.updateKit k fun rec => { rec with count := 0 }
  | .kitRetire k => { r with kits := r.kits.filter fun rec => rec.kit != k }
  | _ => r

/-- The hold history test at the end of each application (R42). -/
def testHistory (r : Replica) : Replica :=
  { r with lots := r.lots.map fun l => { l with holdHistory := l.holdHistory || r.coveredLot l } }

/-- The application of a state frame to a replica (R37, R42, R48 to R60). -/
def applyBody (r : Replica) (authority : Level) (sender : Nat) (body : FrameBody) : Replica :=
  testHistory (if takesEffect r authority sender body then effectOf r sender body else r)

/-- The application of a state frame by the Replica Engine: the floor count rises by one whether or not the frame takes
effect, and the digest is computed afresh (R38). -/
def ReplicaEngine.apply (e : ReplicaEngine) (authority : Level) (sender : Nat) (body : FrameBody) : ReplicaEngine :=
  let r := applyBody e.replica authority sender body
  ⟨r, e.count + 1, r.digest⟩

end Sys2Proof.Machine
end

