-- ==== Sys2Proof/Machine/Presence.lean ====
section
/-! DEFINITION. The Presence Unit: changes of station state and what every block does at them (R26, R29, R33 to R35,
R61, R75, R76, R101, R148), the ORPHAN check (R30), the park timer (R32), and the Catch-up Unit's attempts as far as
a state change begins or ends one (R62, R75, R76). -/

namespace Sys2Proof.Machine

/-! ### Beacons and state changes -/

/-- A BEACON offered (R26); R10 absorbs it while another stands or waits. -/
def offerBeacon (b : Blocks) : Blocks := offer blankBeacon allStations .pu false b

/-- The beacon timer runs in a station state (R26). -/
def beacons (s : StationState) : Bool := acceptsFrames s

/-- A STEP TALLY that SEND FAILED is offered again, unchanged (R144). -/
def reofferTally (b : Blocks) : Blocks :=
  match b.iw.tallyOwed with
  | some t => offer t allStations .iw false { b with iw := { b.iw with tallyOwed := none } }
  | none => b

/-- What the owners owe is offered again when the station enters a state other than OFFLINE and FAULTED: GIVEs (R107),
the TAKE (R104), the TALLY (R144), pending holds (R154). Owed CEDEs follow at the evaluation (R95). The GIVEs join before
the TAKE, which has their kind code (log 19). -/
def reofferOwed (v : View) (b : Blocks) : Blocks :=
  retryPendingHolds v (reofferTally (reofferTake (enqueueGives b.hr.gives b)))

/-- ACTIVE and PARKED are left: deference timers stop, own BIDs are withdrawn (R85, R101), a serve session ends
(R70). -/
def leaveMembership (b : Blocks) : Blocks :=
  endSession (withdrawAll FrameBody.isBid { b with du := { b.du with timers := [] } })

/-- The station state changes: beacon timer and BEACON (R26), membership left, release records emptied (R163), owed
frames offered again, so a KIT GIVE is enqueued before R110 prunes the give list (log 41). -/
def enterState (v : View) (new : StationState) (b : Blocks) : Blocks :=
  let old := b.station
  let b := { b with pu := { b.pu with
    station := new
    beaconTimer := if beacons new then some v.cfg.beaconInterval else none } }
  let b := if beacons new then offerBeacon b else b
  let b := if isMember old && !isMember new then leaveMembership b else b
  let b := if isWorking new then b else { b with du := { b.du with releases := [] } }
  let b := if acceptsFrames new then reofferOwed v b else b
  markDue b

/-! ### The ORPHAN check (R30) -/

/-- This station's ID is the lowest of the candidate set: itself and the PRESENT peers whose last beacon shows ACTIVE or
PARKED. -/
def lowestCandidate (v : View) (b : Blocks) : Bool :=
  b.pu.peers.all fun p => !(p.state == .present && p.showsMember) || v.id < p.id

def orphanOne (v : View) (p : PeerRec) (b : Blocks) : Blocks :=
  if p.state == .absent && v.rep.shows p.id && !b.lc.standing (· == .orphan p.id) then
    offer (.orphan p.id) allStations .pu false b
  else b

def orphanEach (v : View) : List PeerRec → Blocks → Blocks
  | [], b => b
  | p :: ps, b => orphanEach v ps (orphanOne v p b)

/-- The ORPHAN check, peers by ascending ID (R30). -/
def orphanCheck (v : View) (b : Blocks) : Blocks :=
  if isMember b.station && lowestCandidate v b then orphanEach v b.pu.peers b else b

/-! ### Catch-up attempts -/

def isCatchReq (x : FrameBody) : Bool := x == .catchReq

/-- The counts of the candidates for the reference: PRESENT peers whose last beacon shows ACTIVE or PARKED (R62). -/
def candidates (b : Blocks) : List (Nat × Word32) :=
  b.pu.peers.filterMap fun p =>
    match p.beacon with
    | some c => if p.state == .present && isMember c.state then some (p.id, c.count) else none
    | none => none

/-- The reference: the lowest ID among the candidates whose count no other candidate's count is ahead of (R62). -/
def chooseReference (b : Blocks) : Option Nat :=
  let cs := candidates b
  (cs.find? fun c => cs.all fun d => !ahead d.2 c.2).map Prod.fst

/-- The Dispatch Unit asks again for the kit of an entry (R105). -/
def askAgain (v : View) (lot step : Nat) (b : Blocks) : Blocks :=
  match (b.du.entry? lot step).bind (kitNeededOf v b) with
  | some family => askKit v lot step family b
  | none => b

/-- The station enters ISOLATED with the cause of the last failed attempt (R76); a kit request in TAKING ends and the
Dispatch Unit asks again (R105). -/
def isolate (v : View) (c : AttemptCause) (b : Blocks) : Blocks :=
  let b := raise (.isolated c) (enterState v .isolated b)
  let b := match b.hr.request with
    | some r => if r.phase == .taking then askAgain v r.lot r.step (endRequest b) else b
    | none => b
  releaseChecks v b

/-- An attempt fails (R75). -/
def failAttempt (v : View) (c : AttemptCause) (b : Blocks) : Blocks :=
  let ref := b.cu.reference
  let n := b.cu.attempts + 1
  let atLimit := v.cfg.attemptLimit ≤ n
  let b := withdrawAll isCatchReq b
  let b := { b with cu := { b.cu with
    phase := if atLimit then .none else .retryWait
    attempts := n, reference := none, buffer := [], copy := .empty
    answerTimer := none, snapshotTimer := none, deferTimer := none
    retryTimer := if atLimit then none else some v.cfg.beaconInterval } }
  let b := raise (.catchUpFailed c ref n) b
  if atLimit then isolate v c b else b

/-- A CATCH REQ enqueued, targeted at the reference (R62, R63). -/
def enqueueReq (ref : Nat) (b : Blocks) : Blocks := offer .catchReq ref .cu false b

/-- An attempt begins (R62). -/
def beginAttempt (v : View) (b : Blocks) : Blocks :=
  let b := { b with cu := { b.cu with
    defers := 0, expected := 0, buffer := [], copy := .empty, retryTimer := none, answerTimer := none
    snapshotTimer := none, deferTimer := none } }
  match chooseReference b with
  | some r => enqueueReq r { b with cu := { b.cu with phase := .requesting, reference := some r } }
  | none => failAttempt v .noReference { b with cu := { b.cu with reference := none } }

/-- A catch-up started by the Presence Unit: the attempt counter is set to 0 first (R62). -/
def startCatchUp (v : View) (b : Blocks) : Blocks := beginAttempt v { b with cu := { b.cu with attempts := 0 } }

/-! ### Entries to the station states -/

/-- Entry to JOINING from ACTIVE or PARKED (R29). -/
def diverge (v : View) (c : DivergedCause) (b : Blocks) : Blocks :=
  startCatchUp v (abandonLeave .badState (raise (.diverged c) (enterState v .joining b)))

/-- R29 moves only an ACTIVE or PARKED station. -/
def divergeIfMember (v : View) (c : DivergedCause) (b : Blocks) : Blocks :=
  if isMember b.station then diverge v c b else b

/-- What the blocks do at an entry to ACTIVE by founding or after a catch-up, in the order of R74: reconcile, the hold
serial (after a catch-up), the Handler Record's agreement, the release check. -/
def bringIntoLine (v : View) (afterCatchUp : Bool) (b : Blocks) : Blocks :=
  let b := reconcile v afterCatchUp b
  let b := if afterCatchUp then { b with cli := { b.cli with serial := serialAfterCatchUp v } } else b
  releaseChecks v (agreeWithReplica v b)

/-- The station founds the floor (R23). -/
def found (v : View) (b : Blocks) : Blocks :=
  let b := { b with pu := { b.pu with listenTimer := none, listenWait := false } }
  bringIntoLine v false (orphanCheck v (raise .founded (enterState v .active b)))

/-- PARKED is left for ACTIVE (R33). -/
def unpark (v : View) (b : Blocks) : Blocks :=
  if b.station == .parked then reconcile v false (orphanCheck v (enterState v .active b)) else b

/-- Entry to PARKED (R33). -/
def park (v : View) (b : Blocks) : Blocks := orphanCheck v (raise .parked (enterState v .parked b))

/-- Entry to LISTENING by JOIN or REJOIN (R21, R24, R35). -/
def listen (v : View) (b : Blocks) : Blocks :=
  enterState v .listening
    { b with pu := { b.pu with listenTimer := some Config.listenMs, listenWait := false, conflictRaised := false } }

/-- An attempt in progress ends uncounted at entry to FAULTED, and the attempt counter with it (R61). RETRY WAIT, which lies
between two attempts, counts as in progress here (log 60): only in phase NONE does the counter stay, at the limit after
ISOLATED (R76). -/
def dropAttempt (b : Blocks) : Blocks :=
  withdrawAll isCatchReq { b with cu := { b.cu with
    phase := .none, reference := none, buffer := []
    attempts := if b.cu.phase == .none then b.cu.attempts else 0
    copy := if b.cu.session.isSome then b.cu.copy else .empty
    answerTimer := none, snapshotTimer := none, deferTimer := none, retryTimer := none } }

/-- Entry to FAULTED (R35, R61, R133). -/
def enterFaulted (v : View) (b : Blocks) : Blocks :=
  let b := dropAttempt (enterState v .faulted b)
  let b := { b with
    pu := { b.pu with listenTimer := none, parkTimer := none, listenWait := false }
    iw := { b.iw with halt := true } }
  abandonLeave .badState b

/-! ### The park timer, and the end of every command -/

/-- The conditions under which the park timer runs (R32). -/
def parkCondition (v : View) (b : Blocks) : Bool :=
  b.station == .active && v.cfg.parkTimeout != 0 && b.du.queue.isEmpty && b.lc.ownBids == 0

/-- The full park timeout in ms (R32). -/
def parkMs (v : View) : Nat := v.cfg.parkTimeout * 10000

/-- The park timer started when its conditions become true together, stopped when one fails (R32). -/
def keepParkTimer (v : View) (b : Blocks) : Blocks :=
  let t := if parkCondition v b then some (b.pu.parkTimer.getD (parkMs v)) else none
  { b with pu := { b.pu with parkTimer := t } }

/-- The end of a LEAVE sequence that has come to be complete (R34). -/
def completeLeave (v : View) (b : Blocks) : Blocks :=
  if leaveComplete b then settle v (enterOffline v b) else b

/-- The end of every command: the evaluations, a complete LEAVE sequence, the park timer (log 4). -/
def finish (v : View) (b : Blocks) : Blocks := keepParkTimer v (completeLeave v (settle v b))

end Sys2Proof.Machine
end

