-- ==== Sys2Proof/Machine/Tally.lean ====
section
/-! DEFINITION. Step end and the STEP TALLY at its sender (R144, R146, R161), and the Step Counters handed over for
CLAIM LOST (R147). -/

namespace Sys2Proof.Machine

def setCounters (c : StepCounters) (b : Blocks) : Blocks := { b with iw := { b.iw with counters := c } }

/-- The kit of a STEP TALLY: the kit used the replica shows, else the kit of the step start (log 14). -/
def tallyKit (v : View) (c : StepCounters) (lot : Nat) : Nat :=
  match v.rep.step? lot c.step with
  | some s => (s.state.kit?).getD c.kit
  | none => c.kit

/-- The STEP TALLY of the Step Counters (R144). -/
def buildTally (v : View) (c : StepCounters) (lot : Nat) : FrameBody :=
  .stepTally lot c.step (tallyKit v c lot) c.entered c.pass c.fail c.lost c.insertions

/-- The counts balance, as those of every STEP TALLY that is built do (R52). -/
def StepCounters.balanced (c : StepCounters) : Bool := c.entered == c.pass + c.fail + c.lost

/-- A STEP TALLY enqueued; in OFFLINE and FAULTED it is answered SEND FAILED at once and is owed (R9, R144). None is
built of counts that do not balance (R52, R161, log 42). -/
def enqueueTally (v : View) (lot : Nat) (b : Blocks) : Blocks :=
  let t := buildTally v b.iw.counters lot
  if !b.iw.counters.balanced then b
  else if acceptsFrames b.station then offer t allStations .iw false b
  else { b with iw := { b.iw with tallyOwed := some t } }

/-- The Step Counters with the units not yet counted taken as lost (R144). -/
def StepCounters.balance (c : StepCounters) : StepCounters := { c with lost := c.lost + c.remaining }

/-- The step ends (R144): the head becomes ENDING, end pending takes the rest as lost, the STEP TALLY is enqueued where
the counts balance. -/
def endStep (v : View) (lot : Nat) (b : Blocks) : Blocks :=
  let c := b.iw.counters
  let b := updateEntry lot c.step (fun e => { e with phase := .ending }) b
  enqueueTally v lot (setCounters (if c.endPending then c.balance else c) b)

/-- The head entry is RUNNING for the Step Counters' lot and step, and has not been marked orphaned (R144, R147). One that
an installed snapshot shows RUNNING here again keeps the mark, so no verdict ends its step (log 62). -/
def countsRunningHead (b : Blocks) : Option Nat :=
  match b.du.queue, b.iw.counters.lot with
  | h :: _, some lot =>
    if h.phase == .running && !h.orphaned && h.lot == lot && h.step == b.iw.counters.step then some lot else none
  | _, _ => none

/-- The step-end test after a verdict or a timeout (R144). -/
def stepEndTest (v : View) (b : Blocks) : Blocks :=
  match countsRunningHead b with
  | some lot =>
    let c := b.iw.counters
    if c.tested + c.lost == c.entered || c.endPending then endStep v lot b else b
  | none => b

/-- The CLAIM LOST notices that waited for the insertion, with the Step Counters (R88, R147). -/
def raiseLost (c : StepCounters) : List LostClaim → Blocks → Blocks
  | [], b => b
  | x :: xs, b => raiseLost c xs (raise (.claimLost x.lot x.step x.cause (some c)) b)

/-- An insertion has been counted: the counters are handed over, the step-end test is made (R138, R144, R147). The
counters are those of the step started last (log 42). -/
def insertionCounted (v : View) (b : Blocks) : Blocks :=
  let b := raiseLost b.iw.counters b.du.lostAfterTest { b with du := { b.du with lostAfterTest := [] } }
  stepEndTest v b

/-! ### The own STEP TALLY heard (R161) -/

/-- The outcome of an applied STEP TALLY, from the replica after it (R52, R161). -/
def tallyOutcome (v : View) (lot k pass : Nat) : TallyOutcome :=
  if pass = 0 then .spent
  else match v.rep.lot? lot with
    | some l => if l.complete then .complete else .next (k + 1)
    | none => .spent

/-- The replica's entered count for a step still RUNNING here, none when it is not (R161). -/
def runningEntered (v : View) (lot k : Nat) : Option Nat :=
  match v.rep.step? lot k with
  | some s => if s.state.runningAt v.id then some s.state.entered else none
  | none => none

/-- TALLY REFUSED, and a balanced STEP TALLY with the replica's entered count where one can be built (R161). -/
def refuseTally (v : View) (lot k entered repEntered : Nat) (b : Blocks) : Blocks :=
  let b := raise (.tallyRefused lot k entered repEntered) b
  let c := b.iw.counters
  if c.tested + c.lost ≤ repEntered then
    enqueueTally v lot (setCounters (StepCounters.balance { c with entered := repEntered }) b)
  else b

end Sys2Proof.Machine
end

