-- ==== Sys2Proof/Machine/Signals.lean ====
section
/-! DEFINITION. The Replica Engine's signal (R39) and what each block does on it: the outcome of own frames, entries
marked and reconciled, the claim won, the step started, hold and kit notices, the release check. -/

namespace Sys2Proof.Machine

/-- The signal of one application (R39): the replica before it, the frame, and whether it took effect. -/
structure Signal where
  before : Replica
  sender : Nat
  own : Bool
  body : FrameBody
  effect : Bool
  deriving DecidableEq, Repr

/-! ### Notices of the Replica Engine, raised at the application (R39) -/

/-- The lot of a frame's effect was posted by this station, or this station is the frame's sender. -/
def originOrSender (v : View) (sig : Signal) (lot : Nat) : Bool :=
  sig.sender == v.id || match sig.before.lot? lot with
    | some l => l.origin == v.id
    | none => false

/-- LOT SPENT, LATE HOLD, SHIP DONE and SHIP CONFLICT (R52, R53, R55). Of the two of one SHIP, SHIP DONE is raised first
(log 19). A HOLD with a code that names nothing raises no LATE HOLD (R180, log 66). -/
def replicaNotices (v : View) (sig : Signal) (b : Blocks) : Blocks :=
  match sig.body with
  | .stepTally lot k _ _ p _ _ _ => raiseIf (sig.effect && p == 0 && originOrSender v sig lot) (.lotSpent lot k) b
  | .hold sn (.lot id) _ _ =>
    raiseIf (holdCase sig.before sig.sender sn (.lot id) == .shipped && sig.sender == v.id)
      (.lateHold id sig.sender sn) b
  | .ship lot q =>
    match sig.before.lot? lot with
    | some l =>
      let c := shipConflicts sig.before l
      raiseIf (c.untallied || c.covered || c.suspended) (.shipConflict lot sig.sender c)
        (raiseIf (originOrSender v sig lot) (.shipDone lot q) b)
    | none => b
  | _ => b

/-! ### The Dispatch Unit -/

/-- The step of an entry was CLAIMED by or RUNNING at this station before the application. -/
def wasMine (v : View) (sig : Signal) (e : QueueEntry) : Bool :=
  match sig.before.step? e.lot e.step with
  | some s => s.state.heldBy v.id
  | none => false

/-- How a step left this station by a frame, or its lot the floor (R88). A STEP TALLY with passing units leaves the
step TALLIED, which the replica shows at the reconcile; one without ends the entry where it is this station's own. Only
an own CEDE cedes: one of a peer strapped with the same ID (R7) is none of the other causes either, so not-own. -/
def leftBy (sig : Signal) : Option LeftCause :=
  match sig.body with
  | .stepTally _ _ _ _ p _ _ _ => if p = 0 then some (if sig.own then .ended else .notOwn) else none
  | .cede .. => some (if sig.own then .ceded else .notOwn)
  | .withdraw _ => some .withdrawn
  | .ship .. => some .shipped
  | _ => some .notOwn

/-- This application took an entry's step from this station. -/
def leftNow (v : View) (sig : Signal) (e : QueueEntry) : Bool := wasMine v sig e && !stillMine v e

/-- The ORPHAN of a signal names this station. -/
def orphansMe (v : View) (sig : Signal) : Bool := sig.body == .orphan v.id

/-- This application removed an entry's lot. -/
def lotGone (v : View) (sig : Signal) (e : QueueEntry) : Bool :=
  (sig.before.lot? e.lot).isSome && (v.rep.lot? e.lot).isNone

/-- The marks of an entry whose step the application took: how it left (R88), and orphaned (R89). An entry whose lot the
application removed after its step had been tallied takes the cause of the removal (R88, log 13). -/
def markEntry (v : View) (sig : Signal) (e : QueueEntry) : QueueEntry :=
  if leftNow v sig e then { e with left := leftBy sig, orphaned := e.orphaned || orphansMe v sig }
  else if lotGone v sig e && e.left.isNone then { e with left := leftBy sig }
  else e

/-- How an entry's step left is taken back: the replica shows the step as this station's, or it shows the lot of an entry
that had ended with its lot. The orphaned mark is not (R87, log 62). -/
def unmarkIfShown (v : View) (e : QueueEntry) : QueueEntry :=
  if stillMine v e || (e.left == some .ended && (v.rep.lot? e.lot).isSome) then { e with left := none } else e

/-- An installed replica that shows a lot has not had it removed as spent, so its entries have not ended by that, and a
step it shows as this station's has not left it (R88, log 13). -/
def unmarkSpent (v : View) (b : Blocks) : Blocks :=
  { b with du := { b.du with queue := b.du.queue.map (unmarkIfShown v) } }

/-- A RUNNING or ENDING entry has been marked orphaned (R89). -/
def runOrphaned (v : View) (sig : Signal) (b : Blocks) : Bool :=
  orphansMe v sig && b.du.queue.any fun e => leftNow v sig e && !beforeRun e.phase

/-- The entries marked, and the Insertion Watch told of an orphaned head in run (R89). -/
def markEntries (v : View) (sig : Signal) (b : Blocks) : Blocks :=
  let halt := runOrphaned v sig b
  let b := { b with du := { b.du with queue := b.du.queue.map (markEntry v sig) } }
  if halt then haltStep b else b

/-- An own BID heard with effect (R86). -/
def claimWon (v : View) (lot k : Nat) (b : Blocks) : Blocks :=
  match v.rep.step? lot k with
  | some s =>
    let t := tier v b s.spec
    let b := { b with du := { b.du with
      queue := b.du.queue ++ [⟨lot, k, .won, none, none, none, false, none, false⟩] } }
    let b := raise (.claimWon lot k t) b
    if b.du.leaving then setCede .leave lot k b else b
  | none => b

/-- An own STEP START heard with effect (R92, R134); it abandons a LEAVE sequence (R34). -/
def stepStarted (v : View) (lot k kit : Nat) (b : Blocks) : Blocks :=
  let b := updateEntry lot k (fun e => { e with phase := .running }) b
  abandonLeave .stepRunning (startCount v lot k kit b)

/-- The outcome of an own STEP TALLY (R161). -/
def ownTally (v : View) (sig : Signal) (lot k kit e p f l i : Nat) (b : Blocks) : Blocks :=
  if sig.effect then raise (.stepTallied lot k kit e p f l i (tallyOutcome v lot k p)) b
  else
    match runningEntered v lot k with
    | some n => refuseTally v lot k e n b
    | none => b

/-- The cause of WITHDRAW FAILED by the replica (R97). -/
def withdrawCause (r : Replica) (lot : Nat) : WithdrawFailedCause :=
  if (r.lot? lot).isSome then .stepRunning else .notFound

/-- RELEASE ASSIGNED for each lot whose ownership an own ORPHAN of `s` passed to this station (R162). -/
def raiseAssigned (s : Nat) : List LotRec → Blocks → Blocks
  | [], b => b
  | l :: ls, b => raiseAssigned s ls (raiseIf (l.ownedBy s) (.releaseAssigned l.lot s) b)

/-- An own CEDE has been heard, with or without effect: no CEDE is owed for its entry any longer, also where reconcile
waits and the entry stays (R87, R95, log 59). -/
def cedeHeard (lot k : Nat) (b : Blocks) : Blocks := updateEntry lot k (fun e => { e with cede := none }) b

/-- The Dispatch Unit's report and action on its own frames, and WITHDRAWN at the lot's origin (R79, R86, R92, R95, R97,
R98, R161, R162). -/
def dispatchOutcome (v : View) (sig : Signal) (b : Blocks) : Blocks :=
  match sig.body with
  | .post p =>
    if sig.own then
      raise (if sig.effect then .posted p.lot else .postFailed p.lot (postCause sig.before p.lot)) b
    else b
  | .bid lot k => if sig.own && sig.effect then claimWon v lot k b else b
  | .stepStart lot k kit => if sig.own && sig.effect then stepStarted v lot k kit b else b
  | .stepTally lot k kit e p f l i => if sig.own then ownTally v sig lot k kit e p f l i b else b
  | .cede lot k => if sig.own then cedeHeard lot k b else b
  | .withdraw lot =>
    if sig.effect then
      raiseIf (sig.own || (sig.before.lot? lot).map LotRec.origin == some v.id) (.withdrawn lot) b
    else raiseIf sig.own (.withdrawFailed lot (withdrawCause sig.before lot)) b
  | .resume _ =>
    if sig.own then raise (if sig.effect then .resumed else .resumeFailed .notFound) b else b
  | .orphan s => if sig.own then raiseAssigned s sig.before.lots b else b
  | _ => b

/-- Reconcile runs on a signal in ACTIVE, PARKED and ISOLATED, but not in ACTIVE or PARKED on an ORPHAN that names
this station (R88, R89). -/
def reconcileOn (v : View) (sig : Signal) (b : Blocks) : Blocks :=
  if isWorking b.station && !(isMember b.station && orphansMe v sig) then reconcile v false b else b

/-! ### The Insertion Watch: a LIFT applied (R142, R143) -/

/-- A hold entry covers the running head's lot and step at this station with the fitted kit. -/
def coversRunningHead (v : View) (h : HoldEntry) (b : Blocks) : Bool :=
  match b.du.queue with
  | e :: _ =>
    e.phase == .running && match v.rep.lot? e.lot with
      | some l =>
        match l.step? e.step with
        | some s => h.coversStep l s.spec v.id b.hr.fitted
        | none => false
      | none => false
  | [] => false

/-- The lifted entry's effect on the Yield Window and the trip counter. -/
def watchLift (v : View) (h : HoldEntry) (b : Blocks) : Blocks :=
  let b := if coversRunningHead v h b then { b with iw := { b.iw with window := [] } } else b
  match h.target with
  | .kit k => if b.hr.fitted == some k then { b with iw := { b.iw with trip := 0 } } else b
  | _ => b

/-- A LIFT applied, at the Insertion Watch: where two entries bear its hold ID the older one decides (log 25). -/
def watchOutcome (v : View) (sig : Signal) (b : Blocks) : Blocks :=
  match sig.body with
  | .lift o sn =>
    match sig.before.hold? o sn with
    | some h => if sig.effect then watchLift v h b else b
    | none => b
  | _ => b

/-! ### The Handler Record (R104, R107, R108) -/

/-- The outcome of an own kit frame a host asked for (R108). -/
def kitOutcome (sig : Signal) (sub : KitSubkind) (k : Nat) (b : Blocks) : Blocks :=
  if sig.own then raise (if sig.effect then .kitUpdated sub k else .kitFailed sub k .noEffect) b else b

/-- The outcome of an own KIT TAKE (R104). -/
def takeOutcome (v : View) (sig : Signal) (k : Nat) (b : Blocks) : Blocks :=
  match takingFor b k with
  | some r => if sig.effect then needFitting r k b else tryNext v r k b
  | none => if sig.effect then giveBack k b else b

def handlerOutcome (v : View) (sig : Signal) (b : Blocks) : Blocks :=
  match sig.body with
  | .kitAdd k _ _ => kitOutcome sig .add k b
  | .kitFound k => kitOutcome sig .found k b
  | .kitServiced k => kitOutcome sig .serviced k b
  | .kitRetire k => kitOutcome sig .retire k b
  | .kitTake k => if sig.own then takeOutcome v sig k b else b
  | .kitGive k => if sig.own then dropGive k b else b
  | _ => b

/-! ### The Cell Line Interface (R153, R155, R157, R158) -/

/-- The outcome of an own host HOLD (R153); HOLD FAILED carries the hold ID with every cause (log 33). -/
def hostHoldNotice (h : HoldEntry) (b : Blocks) : HoldCase → Blocks
  | .appended => raise (.holdPlaced h) b
  | .shipped => b
  | .sameTarget => raise (.holdFailed h.origin h.serial .alreadyHeld) b
  | .sameId => raise (.holdFailed h.origin h.serial .alreadyHeld) b
  | .full => raise (.holdFailed h.origin h.serial .holdFull) b

/-- The outcome of an own automatic HOLD (R155). -/
def autoHoldNotice (h : HoldEntry) (b : Blocks) : HoldCase → Blocks
  | .appended => raise (.holdPlaced h) b
  | .shipped => b
  | .sameTarget => b
  | .sameId => raise (.holdLost h.target h.level h.reason (some .idPresent)) b
  | .full => raise (.holdLost h.target h.level h.reason (some .listFull)) b

/-- HELD for each entry that an appended hold covers (R158). -/
def raiseHeld (v : View) (h : HoldEntry) : List QueueEntry → Blocks → Blocks
  | [], b => b
  | e :: es, b => raiseHeld v h es (raiseIf (holdCoversEntry v b h e) (.held h e.lot e.step e.phase) b)

def cellOutcome (v : View) (sig : Signal) (b : Blocks) : Blocks :=
  match sig.body with
  | .hold sn t l r =>
    let h : HoldEntry := ⟨sig.sender, sn, t, l, r⟩
    let c := holdCase sig.before sig.sender sn t
    let b := if sig.own then (if r == .host then hostHoldNotice h b c else autoHoldNotice h b c) else b
    if c == .appended then raiseHeld v h b.du.queue b else b
  | .lift o sn =>
    match sig.before.hold? o sn with
    | some h =>
      if sig.effect then
        if sig.own then raise (.holdLifted h none) b else raiseIf (h.origin == v.id) (.holdLifted h (some sig.sender)) b
      else raiseIf sig.own (.liftFailed o sn .notFound) b
    | none => raiseIf sig.own (.liftFailed o sn .notFound) b
  | _ => b

/-! ### The Presence Unit (R29, R33) -/

/-- PARKED is left on an own BID; an ORPHAN that names this station and a full Hold List take a member of the floor to
JOINING. R180 does not say which of R53's four no-effect cases a HOLD with a code that names nothing is; it is none of them
here, so it reports no full list either (log 66). -/
def presenceOutcome (v : View) (sig : Signal) (b : Blocks) : Blocks :=
  match sig.body with
  | .bid _ _ => if sig.own then unpark v b else b
  | .orphan s => if s == v.id then divergeIfMember v .orphaned b else b
  | .hold sn t _ _ =>
    if holdCase sig.before sig.sender sn t == .full then divergeIfMember v .holdFull b else b
  | _ => b

/-! ### The signal -/

/-- What every block does on the signal of an application, in the order R39 lists them, but for the release check, which
runs last (log 45); the evaluations follow at the end of the command (log 4). An entry that the signal has made the head is
in PREPARING before the blocks behind the Dispatch Unit act (R90). `v` is the view of the replica after the application. -/
def signalBlocks (v : View) (sig : Signal) (b : Blocks) : Blocks :=
  let b := replicaNotices v sig b
  let b := markEntries v sig b
  let b := dispatchOutcome v sig b
  let b := enterHead (reconcileOn v sig b)
  let b := watchOutcome v sig b
  let b := presenceOutcome v sig b
  let b := handlerOutcome v sig b
  let b := cellOutcome v sig b
  markDue (releaseChecks v b)

end Sys2Proof.Machine
end

