-- ==== Sys2Proof/Machine/CatchUp.lean ====
section
/-! DEFINITION. The Catch-up Unit's two sides: serving a snapshot (R66 to R70) and receiving one (R63 to R65, R71 to
R75). The hearing of frames is in Machine/Hearing.lean. -/

namespace Sys2Proof.Machine

/-! ### The reference side -/

def setSession (ss : Option ServeSession) (b : Blocks) : Blocks := { b with cu := { b.cu with session := ss } }

/-- A serve session opened for a requester, with its SNAP BEGIN enqueued (R66). The content of SNAP BEGIN is built at
its transmit start (R67), so the queued entry carries a blank one. -/
def openSession (requester : Nat) (b : Blocks) : Blocks :=
  offer (.snapBegin 0 0 0 0 0) requester .cu false (setSession (some ⟨requester, .open, 0, 0, 0⟩) b)

/-- A CATCH REQ whose target is this station (R66). -/
def serveReq (requester : Nat) (b : Blocks) : Blocks :=
  if isMember b.station then
    match b.cu.session with
    | none => openSession requester b
    | some ss =>
      if ss.requester == requester then
        match ss.phase with
        | .open => b
        | .sending => openSession requester (endSession b)
      else offer .catchDefer requester .cu false b
  else b

/-- The entries of a snapshot, in the order they are sent (R68). -/
def entriesOf (r : Replica) : List SnapRecord :=
  (r.lots.flatMap fun l => [.lot l.head, .plan (l.plan.map StepRec.state)])
    ++ r.holds.map .hold ++ r.kits.map .kit ++ [.ring r.ring]

/-- The copy that a serve session sends; the empty replica when there is none. -/
def servingCopy (c : SnapshotCopy) : Replica :=
  match c with
  | .serving r => r
  | _ => .empty

/-- The next SNAP frame of a session that is SENDING: the next entry, or after the last the SNAP END (R68). -/
def nextSnap (ss : ServeSession) (b : Blocks) : Blocks :=
  let es := entriesOf (servingCopy b.cu.copy)
  match es[ss.next]? with
  | some r =>
    offer (.snapEntry ss.next r) ss.requester .cu false (setSession (some { ss with next := ss.next + 1 }) b)
  | none => offer (.snapEnd ss.count ss.digest es.length) ss.requester .cu false b

/-- The session, when it is SENDING to a target. -/
def sendingTo (b : Blocks) (target : Nat) : Option ServeSession :=
  match b.cu.session with
  | some ss =>
    match ss.phase with
    | .sending => if ss.requester == target then some ss else none
    | .open => none
  | none => none

/-- A SNAP frame of this station has been SENT (R68). -/
def snapSent (body : FrameBody) (target : Nat) (b : Blocks) : Blocks :=
  match sendingTo b target with
  | some ss =>
    match body with
    | .snapBegin .. => nextSnap ss b
    | .snapEntry .. => nextSnap ss b
    | .snapEnd .. => { b with cu := { b.cu with session := none, copy := .empty } }
    | _ => b
  | none => b

/-- SNAP BEGIN starts: the replica is copied, its count and digest become C and D, the session is SENDING (R67). -/
def copyReplica (v : View) (b : Blocks) : Blocks :=
  { b with cu := { b.cu with
      copy := .serving v.rep
      session := b.cu.session.map fun ss => { ss with phase := .sending, count := v.count, digest := v.digest, next := 0 } } }

/-- A SNAP BEGIN that did not reach its end is started again, so its session is OPEN again (R67, log 8). -/
def reopenSession (b : Blocks) : Blocks :=
  { b with cu := { b.cu with session := b.cu.session.map fun ss => { ss with phase := .open } } }

/-! ### The requester side -/

/-- An attempt with a reference is in progress (R64, R65, R71). -/
def attemptRuns (p : AttemptPhase) : Bool := p == .requesting || p == .deferred || p == .receiving

/-- The own CATCH REQ is heard: the answer timer starts (R63). -/
def reqHeard (target : Nat) (b : Blocks) : Blocks :=
  if b.cu.phase == .requesting && b.cu.reference == some target then
    { b with cu := { b.cu with answerTimer := some Config.exchangeMs } }
  else b

/-- REQUESTING after the own REQ has been heard: the answer timer runs (R64). -/
def awaitsAnswer (c : CatchUpUnit) : Bool := c.phase == .requesting && c.answerTimer.isSome

/-- A CATCH DEFER from the reference to this station (R64, R65). -/
def deferHeard (v : View) (b : Blocks) : Blocks :=
  if awaitsAnswer b.cu then
    let n := b.cu.defers + 1
    if 8 ≤ n then failAttempt v .deferred { b with cu := { b.cu with defers := n } }
    else
      { b with cu := { b.cu with
          defers := n, answerTimer := none, phase := .deferred, deferTimer := some v.cfg.beaconInterval } }
  else b

/-- RECEIVING begins (R71). -/
def beginReceiving (c d : Word32) (l h k : Nat) (b : Blocks) : Blocks :=
  { b with cu := { b.cu with
      phase := .receiving, answerTimer := none, deferTimer := none, snapshotTimer := some Config.exchangeMs
      expected := 0, buffer := [], copy := .receiving ⟨c, d, l, h, k, none, .empty⟩ } }

/-- SNAP BEGIN from the reference to this station (R64, R65, R71). -/
def beginHeard (v : View) (c d : Word32) (l h k : Nat) (b : Blocks) : Blocks :=
  if awaitsAnswer b.cu || b.cu.phase == .deferred then beginReceiving c d l h k b
  else if b.cu.phase == .receiving then failAttempt v .gap b
  else b

/-- A lot entry placed: no lot entry may await its plan entry, and the ID must be new (R71). -/
def placeHead (h : LotHead) (a : Assembly) : Option Assembly :=
  if a.head.isNone && (a.rep.lot? h.lot).isNone && a.rep.lots.length < Config.maxLots then some { a with head := some h }
  else none

/-- A plan entry placed behind its lot entry, with as many steps (R71, R180); whether its step states fit one another is
not examined (log 53). -/
def placePlan (states : List StepState) (a : Assembly) : Option Assembly :=
  match a.head with
  | some h =>
    if h.specs.length == states.length && (a.rep.lot? h.lot).isNone && a.rep.lots.length < Config.maxLots then
      some { a with head := none, rep := { a.rep with lots := insertLot (h.toLot states) a.rep.lots } }
    else none
  | none => none

/-- A hold entry placed as the newest; its scope and target must be new (R71). One that repeats the hold ID of another
scope or target is placed too (log 25). -/
def placeHold (h : HoldEntry) (a : Assembly) : Option Assembly :=
  if !a.rep.heldAs h.target && a.rep.holds.length < Config.maxHolds then
    some { a with rep := { a.rep with holds := a.rep.holds ++ [h] } }
  else none

/-- A kit entry placed; its ID must be new (R71). -/
def placeKit (k : KitRec) (a : Assembly) : Option Assembly :=
  if (a.rep.kit? k.kit).isNone && a.rep.kits.length < Config.maxKits then
    some { a with rep := { a.rep with kits := insertKit k a.rep.kits } }
  else none

/-- The ring entry placed. -/
def placeRing (ids : List Nat) (a : Assembly) : Option Assembly :=
  if ids.length ≤ Config.maxShipped then some { a with rep := { a.rep with ring := ids } } else none

/-- The kinds of record an index calls for by the numbers of SNAP BEGIN (R68, R71): 1 lot, 2 plan, 3 hold, 4 kit,
5 ring, 0 none. -/
def calledFor (a : Assembly) (i : Nat) : Nat :=
  if i < 2 * a.lots then (if i % 2 = 0 then 1 else 2)
  else if i < 2 * a.lots + a.holds then 3
  else if i < 2 * a.lots + a.holds + a.kits then 4
  else if i = 2 * a.lots + a.holds + a.kits then 5
  else 0

/-- A record placed at an index, none when it cannot be (R71, log 25). Its fields are placed as they stand: the ranges of
R40, R41, R43 and R44 are not examined (log 53). -/
def placeRecord (a : Assembly) (i : Nat) (r : SnapRecord) : Option Assembly :=
  if calledFor a i = r.typeCode then
    match r with
    | .lot h => placeHead h a
    | .plan ss => placePlan ss a
    | .hold h => placeHold h a
    | .kit k => placeKit k a
    | .ring ids => placeRing ids a
  else none

/-- The snapshot timer restarted by a SNAP frame of the reference (R71). -/
def restartSnapshot (b : Blocks) : Blocks := { b with cu := { b.cu with snapshotTimer := some Config.exchangeMs } }

/-- The snapshot under reception. -/
def receivingCopy (c : SnapshotCopy) : Option Assembly :=
  match c with
  | .receiving a => some a
  | _ => none

/-- A SNAP ENTRY from the reference to this station in RECEIVING (R71): `r` is none when a code of it names nothing (R180).
The index is tested before the record, so an entry that fails both is a GAP (log 61). -/
def entryHeard (v : View) (i : Nat) (r : Option SnapRecord) (b : Blocks) : Blocks :=
  if b.cu.phase == .receiving then
    let b := restartSnapshot b
    if i = b.cu.expected then
      match (match receivingCopy b.cu.copy, r with
        | some a, some r => placeRecord a i r
        | _, _ => none) with
      | some a => { b with cu := { b.cu with copy := .receiving a, expected := i + 1 } }
      | none => failAttempt v .badEntry b
    else failAttempt v .gap b
  else b

/-- The first two checks of SNAP END (R73). -/
def endMatches (a : Assembly) (expected : Nat) (c d : Word32) (n : Nat) : Bool :=
  n == expected && n == 2 * a.lots + a.holds + a.kits + 1 && c == a.count && d == a.digest

/-- What a SNAP END does in RECEIVING (R73): fails the attempt, or gives the snapshot to install. -/
inductive EndResult
  | fail (c : AttemptCause)
  | install (a : Assembly)
  deriving DecidableEq, Repr

def judgeEnd (u : CatchUpUnit) (c d : Word32) (n : Nat) : EndResult :=
  match receivingCopy u.copy with
  | some a =>
    if !endMatches a u.expected c d n then .fail .gap
    else if a.rep.digest = a.digest then .install a
    else .fail .digest
  | none => .fail .gap

/-- A state frame heard while buffering (R72): kept, or the 17th, which fails the attempt. -/
def bufferFrame (v : View) (f : HeardFrame) (b : Blocks) : Blocks :=
  if b.cu.buffer.length < Config.maxBuffer then { b with cu := { b.cu with buffer := b.cu.buffer ++ [f] } }
  else failAttempt v .overflow b

/-- A BEACON from the reference that shows no member of the floor (R64, R65, R71). -/
def referenceBeacon (v : View) (c : Beacon) (b : Blocks) : Blocks :=
  if attemptRuns b.cu.phase && !isMember c.state then failAttempt v .referenceLeft b else b

end Sys2Proof.Machine
end

