-- ==== Sys2Proof/Machine/Wire.lean ====
section
/-! DEFINITION. The levels of the Floor Link (chapter 1.1): the stuff bits a transmitter inserts and a receiver removes,
the wait for idle, the end of a reception at seven equal bits, and what a FRAME_END gives the receiver (R1, R2). A level
is true for recessive, a 1, and false for dominant, a 0. -/

namespace Sys2Proof.Machine

/-! ### Sending -/

/-- The bits behind `n` equal bits of level `l` as they are sent: after six equal bits one of the opposite level is
inserted, and it begins the next run (R1). None follows the frame's last bit, where the frame is over (log 37). -/
def stuffFrom (l : Bool) (n : Nat) : List Bool → List Bool
  | [] => []
  | b :: bs =>
    if n = 6 then (!l) :: b :: stuffFrom b (if b = !l then 2 else 1) bs
    else b :: stuffFrom b (if b = l then n + 1 else 1) bs

/-- The fields of a frame behind its start-of-frame bit (R2). -/
def frameBits (f : RxFrame) : List Bool :=
  beBits 4 f.kind.toNat ++ beBits 6 f.sender.toNat ++ beBits 6 f.target.toNat ++ beBits 7 f.payload.length
    ++ bytesBits f.payload ++ beBits 16 f.crc.toNat

/-- The levels a transmitter drives for a frame, from its start-of-frame bit on, which counts toward the first run
(R1, R2). -/
def wireLevels (f : RxFrame) : List Bool := false :: stuffFrom false 1 (frameBits f)

/-! ### Receiving -/

/-- The bits behind `n` equal bits of level `l` without their stuff bits, up to a seventh equal bit (R1). -/
def unstuffFrom (l : Bool) (n : Nat) : List Bool → List Bool
  | [] => []
  | b :: bs =>
    if b = l then (if 6 ≤ n then [] else b :: unstuffFrom l (n + 1) bs)
    else if n = 6 then unstuffFrom b 1 bs
    else b :: unstuffFrom b 1 bs

/-- The number bits spell, most significant first (R2). -/
def bitsNat (bs : List Bool) : Nat := bs.foldl (fun acc b => 2 * acc + b.toNat) 0

/-- `n` bytes read from bits. -/
def bitsBytes : Nat → List Bool → List Byte
  | 0, _ => []
  | n + 1, bs => byte (bitsNat (bs.take 8)) :: bitsBytes n (bs.drop 8)

/-- The frame that bits behind a start-of-frame bit spell; none when they end before its CRC is complete (R2, R5).
Bits behind the last CRC bit are no part of it (R1). -/
def frameOfBits (bs : List Bool) : Option RxFrame :=
  let n := bitsNat ((bs.drop 16).take 7)
  if bs.length < 39 + 8 * n then none
  else some {
    kind := BitVec.ofNat 4 (bitsNat (bs.take 4))
    sender := BitVec.ofNat 6 (bitsNat ((bs.drop 4).take 6))
    target := BitVec.ofNat 6 (bitsNat ((bs.drop 10).take 6))
    payload := bitsBytes n (bs.drop 23)
    crc := BitVec.ofNat 16 (bitsNat ((bs.drop (23 + 8 * n)).take 16)) }

/-- The consecutive recessive bit times that make the medium idle (R1). -/
def idleRun : Nat := 11

/-- The levels behind `n` consecutive recessive ones, counted afresh of 11 after each dominant one; none when they do
not come (R1). -/
def afterIdle : Nat → List Bool → Option (List Bool)
  | 0, bs => some bs
  | _ + 1, [] => none
  | n + 1, b :: bs => afterIdle (if b then n else idleRun) bs

/-- The consecutive recessive bit times read at the end of levels that follow `n` of them. -/
def recessiveRun : Nat → List Bool → Nat
  | n, [] => n
  | n, b :: bs => recessiveRun (if b then n + 1 else 0) bs

/-- The levels in which a start-of-frame bit is looked for: at once on an idle medium and for a frame already begun, else
behind 11 consecutive recessive bit times, those already read among them (R1). -/
def readable (m : Medium) (bits : List Bool) : Option (List Bool) :=
  match m with
  | .idle => some bits
  | .receiving => some bits
  | .notIdle run => afterIdle (idleRun - run) bits
  | .ended run => afterIdle (idleRun - run) bits
  | .sending => none

/-- The frame received in a run of levels: none when no frame begins in it, `some none` when a coding violation or the
end of the levels ended the frame before its CRC was complete (R1, R5). -/
def receiveLevels (m : Medium) (bits : List Bool) : Option (Option RxFrame) :=
  match (readable m bits).map (List.dropWhile id) with
  | some (_ :: rest) => some (frameOfBits (unstuffFrom false 1 rest))
  | _ => none

/-- A frame of another transmitter may be under reception: the medium is idle, or became idle since the last frame, or
that frame won the arbitration (R1, R14). -/
def Medium.hears : Medium → Bool
  | .idle => true
  | .ended _ => true
  | .receiving => true
  | .notIdle _ => false
  | .sending => false

/-- What a FRAME_END gives the receiver while no own frame is in transmission: none when it is receiving no frame,
`some none` for a frame that was cut off (R1, R5, log 1). -/
def received (m : Medium) : Reception → Option (Option RxFrame)
  | .own => none
  | .cut => if m.hears then some none else none
  | .whole f => if m.hears then some (some f) else none
  | .levels bits => receiveLevels m bits

/-- The medium after levels in which no frame was received: idle behind 11 recessive bit times, else still waited for,
the recessive bit times read last counted (R1). -/
def Medium.waited (m : Medium) (bits : List Bool) : Medium :=
  match m with
  | .notIdle run => if (readable m bits).isSome then .idle else .notIdle (recessiveRun run bits)
  | .ended run => if (readable m bits).isSome then .idle else .ended (recessiveRun run bits)
  | _ => m

/-- The medium after a FRAME_END in which the receiver had a frame (R1): 11 recessive bit times from idle, of which the
levels of a cut frame show those that the receiver has read consecutively, and a last CRC bit none. -/
def mediumAfter : Option RxFrame → Reception → Medium
  | none, .levels bits => .ended (recessiveRun 0 bits)
  | _, _ => .ended 0

/-- The medium after a FRAME_END in which the receiver had none (R1): the end of an ignored frame that is given without
its levels counts the recessive bit times afresh (log 1). -/
def Medium.ignored : Medium → Reception → Medium
  | m, .levels bits => m.waited bits
  | m, .own => m
  | .notIdle _, _ => .notIdle 0
  | m, _ => m

end Sys2Proof.Machine
end

