-- ==== Sys2Proof/Machine/Hearing.lean ====
section
/-! DEFINITION. The hearing of a good frame (R7): the Presence Unit (R22, R24, R28, R30), the Replica Engine (R37 to
R39) and the Catch-up Unit (R63 to R74) in that order; the completion of a catch-up; the end of an own frame (R15). -/

namespace Sys2Proof.Machine

/-- A good frame as it is handed on (R7). -/
structure Heard where
  sender : Nat
  target : Nat
  own : Bool
  body : FrameBody
  deriving DecidableEq, Repr

/-- The blocks of a state changed by their own work. -/
def State.mapBlocks (s : State) (f : View → Blocks → Blocks) : State := { s with blocks := f s.view s.blocks }

/-- The end of a command that may have given a block cause to act. -/
def State.finish (s : State) : State := s.mapBlocks Sys2Proof.Machine.finish

/-! ### The Presence Unit -/

/-- The first peer frame bearing the own ID since the last JOIN or REJOIN (R24). -/
def idConflict (b : Blocks) : Blocks :=
  if b.pu.conflictRaised then b
  else raise .idConflict { b with pu := { b.pu with conflictRaised := true } }

/-- The last-beacon fields after a frame (R24, R180). -/
def beaconAfter (body : FrameBody) (old : Option Beacon) : Option Beacon :=
  match body with
  | .beacon c => some c
  | _ => old

/-- A peer's record written on a good frame of its own (R24). -/
def recordPeer (sender : Nat) (body : FrameBody) (b : Blocks) : Blocks :=
  let old := b.pu.peer sender
  let new : PeerRec := ⟨sender, .present, some 0, beaconAfter body old.beacon⟩
  raiseIf (old.state == .absent) (.peerPresent sender) { b with pu := { b.pu with peers := setPeer new b.pu.peers } }

/-- LISTENING becomes JOINING in the listen wait (R22). -/
def heardListening (v : View) (b : Blocks) : Blocks :=
  if b.station == .listening then enterState v .joining { b with pu := { b.pu with listenWait := true } } else b

/-- The judgement of a peer's BEACON (R28): the cause of R29 it gives, if any. -/
def judgeBeacon (v : View) (sender : Nat) (c : Beacon) : Option DivergedCause :=
  if isMember c.state then
    if ahead c.count v.count then some .ahead
    else if c.count = v.count && c.digest ≠ v.digest && sender < v.id then some .digest
    else none
  else none

/-- What the Presence Unit does on a peer's BEACON: the ORPHAN check on a peer that is a member no longer (R30; a change
between ACTIVE and PARKED runs none, log 30), then the judgement (R28). -/
def beaconHeard (v : View) (sender : Nat) (wasMember : Bool) (c : Beacon) (b : Blocks) : Blocks :=
  let b := if wasMember && !isMember c.state then orphanCheck v b else b
  if isMember b.station then
    match judgeBeacon v sender c with
    | some cause => diverge v cause b
    | none => b
  else b

/-- The Presence Unit hears a peer frame (R22, R24). A BEACON whose content the formats leave unnamed is a peer frame
that is not judged (R28, R180, log 47). -/
def hearPeer (v : View) (h : Heard) (b : Blocks) : Blocks :=
  if h.sender = v.id then idConflict b
  else if 1 ≤ h.sender && h.sender ≤ 62 then
    let wasMember := (b.pu.peer h.sender).showsMember
    let b := heardListening v (recordPeer h.sender h.body b)
    match h.body with
    | .beacon c => beaconHeard v h.sender wasMember c b
    | _ => b
  else b

/-! ### The Replica Engine -/

/-- The authority by which a LIFT is judged (R54). -/
def authorityFor (s : State) (f : HeardFrame) : Level :=
  if f.own then s.config.authority else s.blocks.pu.authorityOf f.sender

/-- The signal of the application of a frame (R39). -/
def signalOf (s : State) (f : HeardFrame) : Signal :=
  ⟨s.re.replica, f.sender, f.own, f.body, takesEffect s.re.replica (authorityFor s f) f.sender f.body⟩

/-- A state frame applied and signalled (R37 to R39). -/
def applyHeard (f : HeardFrame) (s : State) : State :=
  let sig := signalOf s f
  State.mapBlocks { s with re := s.re.apply (authorityFor s f) f.sender f.body } fun v b => signalBlocks v sig b

/-- A state frame heard: buffered while a snapshot is received, else applied (R37, R72). -/
def hearState (h : Heard) (s : State) : State :=
  if h.body.isState then
    let f : HeardFrame := ⟨h.sender, h.own, h.body⟩
    if s.blocks.cu.phase == .receiving then s.mapBlocks fun v b => bufferFrame v f b else applyHeard f s
  else s

/-! ### The Catch-up Unit -/

/-- A HOLD that finds the Hold List full (R53, case 4). One with a code that names nothing does not (R180, log 66). -/
def fillsList (r : Replica) (f : HeardFrame) : Bool :=
  match f.body with
  | .hold sn t _ _ => holdCase r f.sender sn t == .full
  | _ => false

/-- The evaluations the blocks make on one signal of a catch-up (R39, R83, R116, R132). -/
def State.evaluated (s : State) : State := s.mapBlocks settle

/-- The Catch-up Buffer applied in order, each frame with its own signal; false when a HOLD found the list full
(R74). -/
def applyBuffer : List HeardFrame → State → Bool × State
  | [], s => (true, s)
  | f :: fs, s =>
    let t := (applyHeard f s).evaluated
    if fillsList s.re.replica f then (false, t) else applyBuffer fs t

/-- A catch-up completes (R74): the attempt ends, the station enters ACTIVE, JOINED is raised, the ORPHAN check runs
and the blocks are brought into line. -/
def completeCatchUp (v : View) (reference : Nat) (b : Blocks) : Blocks :=
  let b := { b with cu := { b.cu with
    phase := .none, attempts := 0, reference := none, buffer := [], copy := .empty, snapshotTimer := none } }
  bringIntoLine v true (orphanCheck v (raise (.joined v.count reference) (enterState v .active b)))

/-- The snapshot installed as the replica, with count C and digest D, and its signal (R39, R73). -/
def installSnapshot (a : Assembly) (s : State) : State :=
  State.evaluated (State.mapBlocks { s with re := ⟨a.rep, a.count, a.digest⟩ } fun v b =>
    markDue (unmarkSpent v { b with cu := { b.cu with copy := .empty } }))

/-- Installation, the buffered frames, and completion (R73, R74). -/
def installAndComplete (reference : Nat) (a : Assembly) (s : State) : State :=
  match applyBuffer s.blocks.cu.buffer (installSnapshot a s) with
  | (true, s) => s.mapBlocks fun v b => completeCatchUp v reference b
  | (false, s) => s.mapBlocks fun v b => failAttempt v .holdFull b

/-- SNAP END from the reference to this station (R73). -/
def endHeard (reference : Nat) (c d : Word32) (n : Nat) (s : State) : State :=
  if s.blocks.cu.phase == .receiving then
    match judgeEnd s.blocks.cu c d n with
    | .fail cause => s.mapBlocks fun v b => failAttempt v cause (restartSnapshot b)
    | .install a => installAndComplete reference a s
  else s

/-- A CATCH DEFER or SNAP frame from the reference with this station as target (R64, R65, R71). -/
def referenceHeard (reference : Nat) (body : FrameBody) (s : State) : State :=
  match body with
  | .catchDefer => s.mapBlocks deferHeard
  | .snapBegin c d l h k => s.mapBlocks fun v b => beginHeard v c d l h k b
  | .snapEntry i r => s.mapBlocks fun v b => entryHeard v i (some r) b
  | .unnamedEntry i => s.mapBlocks fun v b => entryHeard v i none b
  | .snapEnd c d n => endHeard reference c d n s
  | _ => s

/-- The Catch-up Unit hears a frame. A BEACON of the reference whose content the formats leave unnamed shows no state, and
leaves the attempt as it is (R64, R65, R71, R180, log 47). -/
def hearCatchUp (h : Heard) (s : State) : State :=
  match h.body with
  | .catchReq =>
    if h.own then s.mapBlocks fun _ b => reqHeard h.target b
    else if h.target = s.stationId then s.mapBlocks fun _ b => serveReq h.sender b
    else s
  | .beacon c =>
    if !h.own && s.blocks.cu.reference == some h.sender then s.mapBlocks fun v b => referenceBeacon v c b else s
  | body =>
    if h.target = s.stationId && s.blocks.cu.reference == some h.sender then referenceHeard h.sender body s else s

/-! ### Hearing, and the end of a frame -/

/-- A good frame is handed to the Presence Unit, the Replica Engine and the Catch-up Unit (R7). -/
def hear (h : Heard) (s : State) : State :=
  let s := if h.own then s else s.mapBlocks fun v b => hearPeer v h b
  hearCatchUp h (hearState h s)

def setLc (lc : LinkController) (b : Blocks) : Blocks := { b with lc := lc }

/-- No own frame is in transmission any longer; `m` is what the medium then is. -/
def endTx (m : Medium) (b : Blocks) : Blocks := setLc { b.lc with tx := none, medium := m } b

/-- The own frame in transmission has ended as sent (R15): its entry leaves, the owner is told SENT, the freed entry is
granted. A frame that the owner enqueues on being told (R68) has the freed entry before a waiting offer (log 51). -/
def sentEntry (t : TxFrame) (b : Blocks) : Blocks :=
  let n := b.lc.queue.countP fun e => e.inTx
  let b := endTx (.ended 0) b
  let b := snapSent t.body t.target (setLc { b.lc with queue := b.lc.queue.filter fun e => !e.inTx } b)
  setLc (refill n b.lc) b

/-- The junk count, which holds at 65535 (R6). -/
def countJunk (b : Blocks) : Blocks := setLc { b.lc with junk := min 65535 (b.lc.junk + 1) } b

/-- The end of the own frame in transmission, heard as own unless the station is OFFLINE (R7, R15). -/
def ownFrameEnd (t : TxFrame) (s : State) : State :=
  let s := s.mapBlocks fun _ b => sentEntry t b
  if s.blocks.station == .offline then s else hear ⟨s.stationId, t.target, true, t.body⟩ s

/-- The end of a frame of another transmitter, which leaves the medium as `m` (R1, R5 to R7). -/
def peerFrameEnd (m : Medium) (f : Option RxFrame) (s : State) : State :=
  let s := s.mapBlocks fun _ b => endTx m b
  match f with
  | none => s.mapBlocks fun _ b => countJunk b
  | some f =>
    match judgeFrame f with
    | none => s.mapBlocks fun _ b => countJunk b
    | some body =>
      if s.blocks.station == .offline then s else hear ⟨f.sender.toNat, f.target.toNat, false, body⟩ s

/-- The end of a frame (R5, R6, R7, R15). The end of a frame that this station neither sent to the end nor received
from its start-of-frame bit is counted and handed on nowhere: its levels are the wait for idle's (R1, log 1). -/
def frameEnd (r : Reception) (s : State) : State :=
  match s.blocks.lc.tx with
  | some t => if r = .own then (ownFrameEnd t s).finish else s
  | none =>
    match received s.blocks.lc.medium r with
    | some f => (peerFrameEnd (mediumAfter f r) f s).finish
    | none => s.mapBlocks fun _ b => setLc { b.lc with medium := b.lc.medium.ignored r } b

end Sys2Proof.Machine
end

