-- ==== Sys2Proof/Machine/Transmit.lean ====
section
/-! DEFINITION. Transmit start (R12, R13) with the revalidation of every kind by its owner and what the owner does with
an invalid entry, the loss of arbitration (R14) and transmit faults (R16, R17). -/

namespace Sys2Proof.Machine

/-! ### Revalidation -/

/-- A HOLD (R152). -/
def holdValid (v : View) (sn : BitVec 8) (t : HoldTarget) : Bool :=
  !v.rep.heldAs t && (v.rep.hold? v.id sn).isNone && v.rep.holds.length < Config.maxHolds

/-- A SHIP (R168). -/
def shipValid (v : View) (lot : Nat) : Bool :=
  match v.rep.lot? lot with
  | some l => releasable v l
  | none => false

/-- A STEP START (R92). -/
def startValid (v : View) (b : Blocks) (lot k kit : Nat) : Bool :=
  match b.du.queue with
  | h :: _ => h.lot == lot && h.step == k && h.phase == .ready && ready v b h && b.hr.fitted == some kit
  | [] => false

/-- A STEP TALLY (R144). -/
def tallyValid (v : View) (lot k kit : Nat) : Bool :=
  match v.rep.step? lot k with
  | some s => s.state.runningAt v.id && s.state.kit? == some kit
  | none => false

/-- An ORPHAN (R31). -/
def orphanValid (v : View) (b : Blocks) (s : Nat) : Bool := (b.pu.peer s).state == .absent && v.rep.shows s

/-- A CEDE (R95). -/
def cedeValid (v : View) (b : Blocks) (lot k : Nat) : Bool :=
  claimedBy v.rep lot k v.id
    && match b.du.entry? lot k with
      | some e =>
        match e.cede with
        | some .hold => entryCovered v b e
        | some _ => true
        | none => false
      | none => false

/-- A BID (R85). -/
def bidValid (v : View) (b : Blocks) (lot k : Nat) : Bool :=
  match v.rep.lot? lot with
  | some l =>
    match l.step? k with
    | some s =>
      s.state.isWaiting && !l.suspended
        && !v.rep.coveredStep l s.spec v.id (kitFor v b.hr s.spec.family)
        && !b.du.refusals.contains s.spec.pair
    | none => false
  | none => false

/-- A KIT TAKE (R104). -/
def takeValid (v : View) (b : Blocks) (k : Nat) : Bool :=
  (takingFor b k).isSome && kitIs v.rep k (fun rec => rec.onShelf && !rec.due) && !v.rep.kitHeld k

/-- A kit is the kit used of a step RUNNING at this station (R107). -/
def usedHere (v : View) (k : Nat) : Bool :=
  v.rep.lots.any fun l => l.plan.any fun s => s.state.runningAt v.id && s.state.kit? == some k

/-- A KIT GIVE (R107). -/
def giveValid (v : View) (b : Blocks) (k : Nat) : Bool :=
  b.hr.gives.contains k && b.hr.fitted != some k && !usedHere v k && kitAtHere v k

/-- A CATCH REQ (R63). -/
def reqValid (b : Blocks) (target : Nat) : Bool :=
  b.cu.phase == .requesting && b.cu.reference == some target && b.pu.isPresent target

/-- The serve session is OPEN for a target. -/
def openFor (b : Blocks) (target : Nat) : Bool :=
  match b.cu.session with
  | some ss => ss.requester == target && ss.phase == .open
  | none => false

/-- A SNAP BEGIN (R67). -/
def snapBeginValid (b : Blocks) (target : Nat) : Bool :=
  isMember b.station && openFor b target && b.pu.isPresent target

/-- A SNAP ENTRY or SNAP END (R68). -/
def snapValid (b : Blocks) (target : Nat) : Bool := (sendingTo b target).isSome && b.pu.isPresent target

/-- The owner's test of an entry against the replica as it stands (R12). -/
def valid (v : View) (b : Blocks) (e : SendEntry) : Bool :=
  match e.body with
  | .hold sn t _ _ => holdValid v sn t
  | .lift o sn => (v.rep.hold? o sn).isSome
  | .ship lot _ => shipValid v lot
  | .stepStart lot k kit => startValid v b lot k kit
  | .stepTally lot k kit .. => tallyValid v lot k kit
  | .orphan s => orphanValid v b s
  | .cede lot k => cedeValid v b lot k
  | .bid lot k => bidValid v b lot k
  | .resume lot => (v.rep.lot? lot).isSome
  | .withdraw lot =>
    match v.rep.lot? lot with
    | some l => !l.anyRunning
    | none => false
  | .post p => (v.rep.lot? p.lot).isNone && v.rep.lots.length < Config.maxLots
  | .kitAdd .. => takesEffect v.rep v.cfg.authority v.id e.body
  | .kitTake k => takeValid v b k
  | .kitGive k => giveValid v b k
  | .kitFound _ => takesEffect v.rep v.cfg.authority v.id e.body
  | .kitServiced _ => takesEffect v.rep v.cfg.authority v.id e.body
  | .kitRetire _ => takesEffect v.rep v.cfg.authority v.id e.body
  | .catchReq => reqValid b e.target
  | .catchDefer => isMember b.station
  | .snapBegin .. => snapBeginValid b e.target
  | .snapEntry .. => snapValid b e.target
  | .snapEnd .. => snapValid b e.target
  | .beacon _ => true
  -- no station builds these (R180)
  | .unnamedState _ => false
  | .unnamedEntry _ => false
  | .unnamedBeacon => false

/-! ### INVALID told to the owner -/

/-- An invalid HOLD (R153, R155); HOLD FAILED carries the hold ID with every cause (log 33). Where several conditions fail,
the target's comes first and the full list's last (log 58). -/
def holdInvalid (v : View) (sn : BitVec 8) (t : HoldTarget) (l : Level) (r : Reason) (b : Blocks) : Blocks :=
  let held := v.rep.heldAs t
  let idPresent := (v.rep.hold? v.id sn).isSome
  if r == .host then raise (.holdFailed v.id sn (if held || idPresent then .alreadyHeld else .holdFull)) b
  else if held then b
  else raise (.holdLost t l r (some (if idPresent then .idPresent else .listFull))) b

/-- An invalid SHIP: SHIP standing becomes no and the release check runs (R169). -/
def shipInvalid (v : View) (lot : Nat) (b : Blocks) : Blocks :=
  releaseCheck v lot (updateRelease lot (fun r => { r with shipStanding := false }) b)

/-- The cause of a failed CEDE of the host (R95). -/
def cedeCause (v : View) (lot k : Nat) : CedeFailedCause :=
  match v.rep.step? lot k with
  | some s => if s.state.runningAt v.id then .stepRunning else .notFound
  | none => .notFound

/-- The cede cause HOST stands on an entry, or a CEDE of the host's has lost its entry. -/
def cedeOfHost (b : Blocks) (lot k : Nat) (host : Bool) : Bool :=
  match b.du.entry? lot k with
  | some e => e.cede == some .host
  | none => host

/-- An invalid CEDE (R95): a step that has left the claim owes no CEDE any longer. R83 does not list this among its
events; that an evaluation follows is log 63's. -/
def cedeInvalid (v : View) (lot k : Nat) (host : Bool) (b : Blocks) : Blocks :=
  if claimedBy v.rep lot k v.id then markDue b
  else
    raiseIf (cedeOfHost b lot k host) (.cedeFailed lot k (cedeCause v lot k))
      (markDue (updateEntry lot k (fun e => { e with cede := none }) b))

/-- An invalid KIT TAKE: the kit joins the tried set and the HR chooses again (R104). -/
def takeInvalid (v : View) (k : Nat) (b : Blocks) : Blocks :=
  match takingFor b k with
  | some r => tryNext v r k b
  | none => b

/-- An invalid CATCH REQ ends an attempt whose reference is no longer PRESENT (R63, R64). -/
def reqInvalid (v : View) (target : Nat) (b : Blocks) : Blocks :=
  if b.cu.phase == .requesting && b.cu.reference == some target && !b.pu.isPresent target then
    failAttempt v .referenceAbsent b
  else b

/-- What the owner does when the LC tells it INVALID (R12). -/
def toldInvalid (v : View) (e : SendEntry) (b : Blocks) : Blocks :=
  match e.body with
  | .hold sn t l r => holdInvalid v sn t l r b
  | .lift o sn => raise (.liftFailed o sn .notFound) b
  | .ship lot _ => shipInvalid v lot b
  | .stepStart lot k _ => startGone lot k b
  | .cede lot k => cedeInvalid v lot k e.host b
  | .bid _ _ => markDue b
  | .resume _ => raise (.resumeFailed .notFound) b
  | .withdraw lot => raise (.withdrawFailed lot (withdrawCause v.rep lot)) b
  | .post p => raise (.postFailed p.lot (postCause v.rep p.lot)) b
  | .kitAdd k _ _ => raise (.kitFailed .add k .noEffect) b
  | .kitFound k => raise (.kitFailed .found k .noEffect) b
  | .kitServiced k => raise (.kitFailed .serviced k .noEffect) b
  | .kitRetire k => raise (.kitFailed .retire k .noEffect) b
  | .kitTake k => takeInvalid v k b
  | .kitGive k => dropGive k b
  | .catchReq => reqInvalid v e.target b
  | .snapBegin .. => endSession b
  | .snapEntry .. => endSession b
  | .snapEnd .. => endSession b
  -- a STEP TALLY, an ORPHAN and a DEFER are forgotten (R144, R31, R66); a BEACON is never invalid (R12)
  | _ => b

/-! ### The start -/

/-- A queue entry the station state allows (R13). -/
def allowed (b : Blocks) (e : SendEntry) : Bool := kindAllowed b.station e.body.kind

/-- The content of a BEACON at this instant (R27). -/
def beaconNow (v : View) (b : Blocks) : Beacon where
  state := b.station
  authority := v.cfg.authority
  interval := v.cfg.beaconInterval / 10
  count := v.count
  digest := v.digest
  depth := b.du.queue.length
  fitted := b.hr.fitted
  band := b.hr.band
  serving := match b.cu.copy with
    | .serving _ => true
    | _ => false

/-- The content of a frame as of its transmit start (R12, R27, R67). -/
def contentNow (v : View) (b : Blocks) (body : FrameBody) : FrameBody :=
  match body with
  | .beacon _ => .beacon (beaconNow v b)
  | .snapBegin .. => .snapBegin v.count v.digest v.rep.lots.length v.rep.holds.length v.rep.kits.length
  | _ => body

def isSnapBegin : FrameBody → Bool
  | .snapBegin .. => true
  | _ => false

/-- A valid entry starts: its content is built, a SNAP BEGIN copies the replica, the entry is in transmission (R12). -/
def startEntry (v : View) (e : SendEntry) (b : Blocks) : Blocks :=
  let t : TxFrame := ⟨contentNow v b e.body, e.target⟩
  let b := if isSnapBegin e.body then copyReplica v b else b
  let q := markFirst (fun x => kindAllowed b.station x.body.kind) b.lc.queue
  setLc { b.lc with queue := q, tx := some t, medium := .sending } b

/-- The first allowed entry removed (R12). -/
def dropFirst (b : Blocks) : Blocks := setLc { b.lc with queue := removeFirst (allowed b) b.lc.queue } b

/-- An entry freed by the LC is granted (R9). -/
def grantFreed (b : Blocks) : Blocks := setLc (refill 1 b.lc) b

/-- An invalid first entry is removed, its owner told INVALID, the freed entry granted, in this order (R12). A frame that
the owner enqueues on being told (R104) has the freed entry before a waiting offer (log 51). -/
def rejectFirst (v : View) (e : SendEntry) (b : Blocks) : Blocks := grantFreed (toldInvalid v e (dropFirst b))

/-- Entries taken in queue order until a valid one starts or none is left; `n` bounds the removals (R12). After a
removal the queue is read from its front, as it then stands (log 36). -/
def startFirst (v : View) : Nat → Blocks → Blocks
  | 0, b => b
  | n + 1, b =>
    match b.lc.queue.find? (allowed b) with
    | some e => if valid v b e then startEntry v e b else startFirst v n (rejectFirst v e b)
    | none => b

/-- More removals than one transmit start can make: every entry and offer, and the kits a request can try (log 31). -/
def startBound (b : Blocks) : Nat := b.lc.queue.length + b.lc.waiting.length + 64

/-- The medium has become idle, or is idle with a frame newly to send (R12). -/
def transmitStart (v : View) (b : Blocks) : Blocks :=
  match b.lc.tx with
  | some _ => b
  | none =>
    let b := setLc { b.lc with medium := .idle } b
    finish v (startFirst v (startBound b) b)

/-! ### A transmission that does not reach its end -/

/-- The entry in transmission goes back to waiting for its next start (R14, R16). -/
def clearTx (q : List SendEntry) (f : SendEntry → SendEntry) : List SendEntry :=
  q.map fun e => if e.inTx then { f e with inTx := false } else e

/-- Entries whose removal was asked for while they were in transmission leave now (R11, log 7). R83 has an own BID that
leaves the Send Queue among its events; that an evaluation follows another frame too is log 63's. -/
def dropRemoved (b : Blocks) : Blocks :=
  if b.lc.queue.any fun e => e.removal && !e.inTx then
    markDue (setLc (b.lc.release fun e => e.removal && !e.inTx) b)
  else b

/-- The frame in transmission did not reach its end: its entry stays, a SNAP BEGIN's session is OPEN again. -/
def stopTx (m : Medium) (t : TxFrame) (f : SendEntry → SendEntry) (b : Blocks) : Blocks :=
  let b := endTx m b
  let b := setLc { b.lc with queue := clearTx b.lc.queue f } b
  dropRemoved (if isSnapBegin t.body then reopenSession b else b)

/-- Arbitration lost: the station goes on as a receiver of the winner's frame (R14). -/
def arbitrationLost (v : View) (b : Blocks) : Blocks :=
  match b.lc.tx with
  | some t => finish v (stopTx .receiving t id b)
  | none => b

/-- A third fault of one entry (R17): the entry and the whole queue fail, LINK FAULT, FAULTED. -/
def linkFault (v : View) (e : SendEntry) (b : Blocks) : Blocks :=
  let b := endTx (.notIdle 0) b
  let b := setLc { b.lc with queue := b.lc.queue.filter fun x => !x.inTx } b
  let b := emptySendQueue v (sendFailed v e.body b)
  enterFaulted v (raise (.linkFault e.body.kind e.body.subkind) b)

/-- A transmit fault: the station waits for idle (R16, R17). -/
def transmitFault (v : View) (b : Blocks) : Blocks :=
  match b.lc.tx with
  | some t =>
    match b.lc.txEntry? with
    | some e =>
      if 2 ≤ e.faults then finish v (linkFault v e b)
      else finish v (stopTx (.notIdle 0) t (fun x => { x with faults := x.faults + 1 }) b)
    | none => finish v (endTx (.notIdle 0) b)
  | none => b

end Sys2Proof.Machine
end

