-- ==== Sys2Proof/Machine/Verdict.lean ====
section
/-! DEFINITION. The Insertion Watch's handler and tester events: SEAT (R135), VERDICT (R138), the insertion timeout
(R139), site masking (R140) and restoring (R141), the Yield Window (R142) and the trip counter (R143). -/

namespace Sys2Proof.Machine

def setIw (w : InsertionWatch) (b : Blocks) : Blocks := { b with iw := w }

/-! ### SEAT -/

/-- A SEAT with its occupancy mask, unconfigured sites dropped (R135). A SEAT taken while the gate is closed asserts
HALT (R133). -/
def seat (v : View) (occupancy : SiteMask) (b : Blocks) : Blocks :=
  let m := configuredMask v occupancy
  match b.iw.insertion with
  | .idle => if b.iw.gate then issueGo v m b else setIw { b.iw with insertion := .waitingGate m, halt := true } b
  | .waitingGate _ => setIw { b.iw with insertion := .waitingGate m, halt := true } b
  | .inTest _ _ => raise .seatInTest b

/-! ### Sites -/

/-- The record of site `n` written. -/
def setSite (n : Nat) (r : SiteRec) (b : Blocks) : Blocks := setIw { b.iw with sites := b.iw.sites.set (n - 1) r } b

/-- The STATION hold with reason SITES, when no configured site is ENABLED (R140, R145). -/
def sitesHold (v : View) (b : Blocks) : Blocks :=
  if anySiteEnabled v b.iw then b else autoHold v (.station v.id) .operator .sites b

/-- The masking test of a site (R140), at or above the limit (log 44). A change of a site's state is an event of the gate
(R132), so the last ENABLED site's masking closes it over the insertion in test, which asserts HALT (R133). -/
def maskingTest (v : View) (n : Nat) (b : Blocks) : Blocks :=
  let r := b.iw.site n
  if r.state == .enabled && v.cfg.failLimit ≤ r.fails then
    sitesHold v (evaluateGate v (raise (.siteMasked n (r.masks + 1)) (setSite n ⟨.masked, 0, r.masks + 1⟩ b)))
  else b

/-- A unit's result at a site: the consecutive fails go to 0 or rise by one (R138). A site that is not ENABLED takes no
result (R140). -/
def siteResult (n : Nat) (passed : Bool) (b : Blocks) : Blocks :=
  let r := b.iw.site n
  if r.state == .enabled then setSite n { r with fails := if passed then 0 else r.fails + 1 } b else b

/-! ### The Yield Window and the trip counter -/

/-- A LOT hold on the Step Counters' lot (R145). -/
def lotHold (v : View) (l : Level) (r : Reason) (b : Blocks) : Blocks :=
  match b.iw.counters.lot with
  | some lot => autoHold v (.lot lot) l r b
  | none => b

/-- The window with a result appended, at most W of them (R142). -/
def pushResult (w : Nat) (x : UnitResult) (xs : List UnitResult) : List UnitResult :=
  if xs.length < w then xs ++ [x] else xs.drop (xs.length + 1 - w) ++ [x]

/-- The window is full and holds the fail limit of FAIL results (R142). -/
def windowTrips (c : ConfigRecord) (xs : List UnitResult) : Bool :=
  xs.length == c.windowSize && c.windowFailLimit ≤ (xs.filter fun x => x == .fail).length

/-- A result taken into the Yield Window (R142). -/
def windowResult (v : View) (x : UnitResult) (b : Blocks) : Blocks :=
  let xs := pushResult v.cfg.windowSize x b.iw.window
  if windowTrips v.cfg xs then
    let b := lotHold v .quality .yield (setIw { b.iw with window := xs } b)
    setIw { b.iw with window := [] } b
  else setIw { b.iw with window := xs } b

/-- A KIT hold on the fitted kit (R143, R145, log 14). -/
def contactHold (v : View) (b : Blocks) : Blocks :=
  match b.hr.fitted with
  | some k => autoHold v (.kit k) .operator .contact b
  | none => b

/-- A bin taken by the trip counter (R143), which trips at or above the limit (log 44). -/
def tripResult (v : View) (bin : Nat) (b : Blocks) : Blocks :=
  if inPassSet v.cfg.tripBins bin then
    if v.cfg.tripLimit ≤ b.iw.trip + 1 then
      let b := contactHold v b
      setIw { b.iw with trip := 0 } b
    else setIw { b.iw with trip := b.iw.trip + 1 } b
  else b

/-! ### VERDICT -/

/-- The bin of site `n`: site 1 in the high half of byte 0 (Table 12.6). -/
def binOf (bins : BitVec 32) (n : Nat) : Nat := (bins >>> (4 * (8 - n))).toNat % 16

/-- The pass set a verdict is judged by: the replica's, or when the lot has left it the one of the step start (R138). -/
def passSet (v : View) (c : StepCounters) : BinMask :=
  match c.lot with
  | some lot =>
    match v.rep.step? lot c.step with
    | some s => s.spec.passBins
    | none => c.passBins
  | none => c.passBins

/-- A PASS, a FAIL and a lost unit in the Step Counters (R138). -/
def StepCounters.addPass (c : StepCounters) : StepCounters := { c with tested := c.tested + 1, pass := c.pass + 1 }
def StepCounters.addFail (c : StepCounters) : StepCounters := { c with tested := c.tested + 1, fail := c.fail + 1 }
def StepCounters.addLost (n : Nat) (c : StepCounters) : StepCounters := { c with lost := c.lost + n }

/-- One site's unit (R138): counters, consecutive fails, masking, window, trip counter. -/
def takeUnit (v : View) (pass : BinMask) (n bin : Nat) (b : Blocks) : Blocks :=
  if bin = 0 then
    maskingTest v n (siteResult n false (setCounters (b.iw.counters.addLost 1) b))
  else if inPassSet pass bin then
    tripResult v bin (windowResult v .pass
      (maskingTest v n (siteResult n true (setCounters b.iw.counters.addPass b))))
  else
    tripResult v bin (windowResult v .fail
      (maskingTest v n (siteResult n false (setCounters b.iw.counters.addFail b))))

def takeUnits (v : View) (pass : BinMask) (bins : BitVec 32) : List Nat → Blocks → Blocks
  | [], b => b
  | n :: ns, b => takeUnits v pass bins ns (takeUnit v pass n (binOf bins n) b)

/-- The insertion is over: insertions rises by one, GO and EN are released, the state is IDLE (R138, R139). -/
def endInsertion (b : Blocks) : Blocks :=
  let c := b.iw.counters
  setIw { releaseGo b.iw with insertion := .idle, counters := { c with insertions := c.insertions + 1 } } b

/-- The sites of a mask, ascending. -/
def sitesOf (m : SiteMask) : List Nat := siteNumbers.filter (inMask m)

/-- A VERDICT (R138). -/
def verdict (v : View) (bins : BitVec 32) (b : Blocks) : Blocks :=
  match b.iw.insertion with
  | .inTest enabled _ =>
    insertionCounted v (endInsertion (takeUnits v (passSet v b.iw.counters) bins (sitesOf enabled) b))
  | _ => raise (.testerProtocol (some 144) none .unexpected) b

/-- The insertion timer expires (R139). -/
def insertionTimeout (v : View) (b : Blocks) : Blocks :=
  match b.iw.insertion with
  | .inTest enabled _ =>
    let b := setCounters (b.iw.counters.addLost (sitesOf enabled).length) b
    let b := endInsertion b
    let b := setIw { b.iw with halt := true } b
    insertionCounted v (lotHold v .operator .timeout b)
  | _ => b

end Sys2Proof.Machine
end

