-- ==== Sys2Proof/Machine/TesterLine.lean ====
section
/-! DEFINITION. The Tester Line: the tester's messages to the Load Engine (R120 to R128), the operation timers, and the
receiver of bytes (12.3, R183). -/

namespace Sys2Proof.Machine

/-! ### Messages out of context (R128) -/

/-- TESTER PROTOCOL with reason UNEXPECTED: the message's type code and the slot it names (R128). A slot byte that is
neither 1 nor 2, which names no slot (R183), is carried as received (log 33). -/
def unexpected (type : Nat) (slot : Option Nat) (b : Blocks) : Blocks :=
  raise (.testerProtocol (some type) slot .unexpected) b

/-- The operation in flight is of a kind, on the slot a slot byte names. -/
def inFlight (b : Blocks) (k : OpKind) (slot : Nat) : Option Slot :=
  match b.le.op, slotOf slot with
  | some op, some s => if op.kind == k && op.slot == some s then some s else none
  | _, _ => none

/-- A message of aborted work: discarded during the PURGE of its slot, else out of context (R126, R128). -/
def stray (type slot : Nat) (b : Blocks) : Blocks :=
  match inFlight b .purge slot with
  | some _ => b
  | none => unexpected type (some slot) b

/-! ### LOAD -/

/-- The slot record's counts changed: no event for the other blocks (R113). -/
def setCounts (s : Slot) (p : SlotProgram) (b : Blocks) : Blocks :=
  match s with
  | .active => { b with le := { b.le with active := { b.le.active with prog := some p } } }
  | .staged => { b with le := { b.le with staged := { b.le.staged with prog := some p } } }

/-- The block timer restarted (R115). -/
def restartBlockTimer (v : View) (s : Slot) (b : Blocks) : Blocks := setOp (some ⟨.load, some s, v.cfg.blockTimeout⟩) b

/-- BLOCK OK (R120). -/
def blockOk (v : View) (slot n : Nat) (b : Blocks) : Blocks :=
  match inFlight b .load slot with
  | some s =>
    match (b.le.slot s).prog with
    | some p =>
      if n = p.done then restartBlockTimer v s (setCounts s { p with done := p.done + 1 } b)
      else failOp v s .sequence b
    | none => b
  | none => stray 129 slot b

/-- The LOAD of a slot sent again from block `n`, with the blocks left to send: 0 where the image, or more, has been
confirmed, which goes out in the byte of 256 (R121, log 32). -/
def reissue (v : View) (s : Slot) (p : SlotProgram) (n : Nat) (b : Blocks) : Blocks :=
  sendDirective (.load s p.program p.revision n (p.expected - n) p.checksum)
    (restartBlockTimer v s (setCounts s { p with retries := p.retries + 1 } b))

/-- BLOCK BAD (R121). -/
def blockBad (v : View) (slot n cause : Nat) (b : Blocks) : Blocks :=
  match inFlight b .load slot with
  | some s =>
    match (b.le.slot s).prog with
    | some p =>
      if n ≠ p.done then failOp v s .sequence b
      else if v.cfg.loadRetry && p.retries < 2 then reissue v s p n b
      else failOp v s (.block cause) b
    | none => b
  | none => stray 130 slot b

/-- A complete image: LOADED, and straight on to its check when the pair is wanted, not held, and the station not
OFFLINE (R120). -/
def loaded (v : View) (s : Slot) (p : SlotProgram) (b : Blocks) : Blocks :=
  let b := setSlot s ⟨.loaded, some p⟩ (setOp none b)
  if wanted v b (p.program, p.revision) && !v.rep.pairHeld (p.program, p.revision) && b.station != .offline then
    issueVerify s b
  else b

/-- LOAD END (R120, log 32). -/
def loadEnd (v : View) (slot : Nat) (b : Blocks) : Blocks :=
  match inFlight b .load slot with
  | some s =>
    match (b.le.slot s).prog with
    | some p => if p.done = p.expected then loaded v s p b else failOp v s .sequence b
    | none => b
  | none => stray 131 slot b

/-! ### VERIFY, SWAP, PURGE -/

/-- A slot VERIFIED, and LOAD DONE raised (R124). -/
def verified (s : Slot) (b : Blocks) : Blocks :=
  match (b.le.slot s).prog with
  | some p => raise (.loadDone p.program p.revision s) (setSlot s ⟨.verified, some p⟩ (setOp none b))
  | none => setOp none b

/-- VERIFY RESULT (R124). -/
def verifyResult (v : View) (slot : Nat) (isMatch : Bool) (b : Blocks) : Blocks :=
  match inFlight b .verify slot with
  | some s => if isMatch then verified s b else failOp v s .verify b
  | none => stray 132 slot b

/-- An operation of a kind is in flight. -/
def opIs (b : Blocks) (k : OpKind) : Bool :=
  match b.le.op with
  | some op => op.kind == k
  | none => false

/-- SWAP DONE: the two slot records exchanged whole (R125). -/
def swapDone (b : Blocks) : Blocks :=
  if opIs b .swap then
    setSlot .staged b.le.active (setSlot .active b.le.staged (setOp none b))
  else unexpected 133 none b

/-- PURGE DONE: the slot is EMPTY (R126). -/
def purgeDone (slot : Nat) (b : Blocks) : Blocks :=
  match inFlight b .purge slot with
  | some s => setSlot s ⟨.empty, none⟩ (setOp none b)
  | none => unexpected 134 (some slot) b

/-! ### Operation timers -/

/-- The operation in flight of a kind, with its slot. -/
def opSlot (b : Blocks) (k : OpKind) : Option Slot :=
  match b.le.op with
  | some op => if op.kind == k then op.slot else none
  | none => none

/-- The block timer expires (R122). -/
def blockExpired (v : View) (b : Blocks) : Blocks :=
  match opSlot b .load with
  | some s => failOp v s .timeout b
  | none => b

/-- The timer of a VERIFY expires (R124). -/
def verifyExpired (v : View) (b : Blocks) : Blocks :=
  match opSlot b .verify with
  | some s => failOp v s .verify b
  | none => b

/-- The timer of a SWAP expires: both slots UNKNOWN (R125). -/
def swapExpired (b : Blocks) : Blocks :=
  if opIs b .swap then
    raise (.testerProtocol none none .swapTimeout)
      (setSlot .staged ⟨.unknown, none⟩ (setSlot .active ⟨.unknown, none⟩ (setOp none b)))
  else b

/-- The timer of a PURGE expires: the slot UNKNOWN (R126). -/
def purgeExpired (b : Blocks) : Blocks :=
  match opSlot b .purge with
  | some s => raise (.testerProtocol none none .purgeTimeout) (setSlot s ⟨.unknown, none⟩ (setOp none b))
  | none => b

/-! ### The receiver (12.3, R183) -/

/-- A well-formed message delivered: VERDICTs to the Insertion Watch, the others to the Load Engine (R115). -/
def deliver (v : View) (m : TesterMsg) (b : Blocks) : Blocks :=
  match m with
  | .blockOk slot n => blockOk v slot n b
  | .blockBad slot n cause => blockBad v slot n cause b
  | .loadEnd slot => loadEnd v slot b
  | .verifyResult slot isMatch => verifyResult v slot isMatch b
  | .swapDone => swapDone b
  | .purgeDone slot => purgeDone slot b
  | .verdict bins => verdict v bins b

/-- The message of a type and payload; none when Table 12.6 has no such message (R183). -/
def testerMsgOf (type : Nat) (payload : List Byte) : Option TesterMsg :=
  match type, payload with
  | 129, [s, n] => some (.blockOk s.toNat n.toNat)
  | 130, [s, n, c] => some (.blockBad s.toNat n.toNat c.toNat)
  | 131, [s] => some (.loadEnd s.toNat)
  | 132, [s, r] => if r = 1 then some (.verifyResult s.toNat true) else if r = 2 then some (.verifyResult s.toNat false) else none
  | 133, [] => some .swapDone
  | 134, [s] => some (.purgeDone s.toNat)
  | 144, [b0, b1, b2, b3] => some (.verdict (BitVec.ofNat 32 (beNat [b0, b1, b2, b3])))
  | _, _ => none

/-- What the receiver finds at the front of the bytes it has read. -/
inductive RxStep (α : Type)
  /-- no complete message yet: these bytes are kept -/
  | wait (kept : List Byte)
  /-- a byte outside a message is passed over -/
  | skip (rest : List Byte)
  /-- a message discarded, with its type byte where it has one -/
  | bad (type : Option Nat) (rest : List Byte)
  | good (m : α) (rest : List Byte)
  deriving DecidableEq, Repr

/-- The check value that closes an envelope: over length, type and payload bytes (12.2). -/
def envelopeCrc (covered : List Byte) : List Byte := beBytes 2 (crc16 (bytesBits covered)).toNat

def testerSync : Byte := 0x5A

/-- A tester message whose bytes are all here: `covered` is its length byte, type and payload. -/
def judgeTester (covered crc rest after : List Byte) : RxStep TesterMsg :=
  match covered with
  | _ :: type :: payload =>
    if crc = envelopeCrc covered then
      match testerMsgOf type.toNat payload with
      | some m => .good m after
      | none => .bad (some type.toNat) rest
    else .bad (some type.toNat) rest
  | _ => .bad none rest

/-- The Tester Line's receiver at the front of its bytes (R183): a discarded message is looked through again from the
byte after its sync byte. -/
def testerFront (bs : List Byte) : RxStep TesterMsg :=
  match bs with
  | [] => .wait []
  | s :: rest =>
    if s = testerSync then
      match rest with
      | [] => .wait bs
      | len :: more =>
        if len = 0 then .bad none rest
        else if more.length < len.toNat + 2 then .wait bs
        else
          judgeTester (len :: more.take len.toNat) ((more.drop len.toNat).take 2) rest (more.drop (len.toNat + 2))
    else .skip rest

/-- The partial tester message kept. -/
def setTesterRx (bs : List Byte) (b : Blocks) : Blocks := { b with le := { b.le with rx := bs } }

/-- TESTER PROTOCOL with reason BAD_FRAME and the type byte as received (R183, log 20). -/
def badTesterFrame (type : Option Nat) (b : Blocks) : Blocks := raise (.testerProtocol type none .badFrame) b

/-- The bytes read, message by message; every step takes at least one byte, so `n` is their number and one. -/
def receiveTester (v : View) : Nat → List Byte → Blocks → Blocks
  | 0, bs, b => setTesterRx bs b
  | n + 1, bs, b =>
    match testerFront bs with
    | .wait kept => setTesterRx kept b
    | .skip rest => receiveTester v n rest b
    | .bad type rest => receiveTester v n rest (badTesterFrame type b)
    | .good m rest => receiveTester v n rest (finish v (deliver v m b))

/-- A run of bytes on the Tester Line (R183). -/
def testerBytes (v : View) (bs : List Byte) (b : Blocks) : Blocks :=
  let all := b.le.rx ++ bs
  receiveTester v (all.length + 1) all b

/-- The type byte of a partial message, none before it has arrived (log 20). -/
def partialType (bs : List Byte) : Option Nat :=
  match bs with
  | _ :: _ :: type :: _ => some type.toNat
  | _ => none

/-- More than 1 ms between two bytes: the partial message is discarded, and what is left of it, which has waited as
long, with it (R183, log 20). -/
def dropTesterPartial (v : View) : Nat → Blocks → Blocks
  | 0, b => b
  | n + 1, b =>
    match b.le.rx with
    | [] => b
    | s :: rest =>
      dropTesterPartial v n
        (receiveTester v (rest.length + 1) rest (badTesterFrame (partialType (s :: rest)) (setTesterRx [] b)))

def testerByteTimeout (v : View) (b : Blocks) : Blocks := dropTesterPartial v b.le.rx.length b

end Sys2Proof.Machine
end

