-- ==== Sys2Proof/Machine/CellFormats.lean ====
section
/-! DEFINITION. Cell Line messages (12.2): the request types and their payloads read, and the bytes of responses,
discard reports and notices (R182); the directives of the Tester Line (12.3). -/

namespace Sys2Proof.Machine

/-! ### Requests read -/

/-- The type of a request (12.2). -/
def Request.type : Request → Nat
  | .configure _ => 1
  | .join => 2
  | .leave => 3
  | .rejoin => 4
  | .reset => 5
  | .status => 6
  | .readLot _ => 7
  | .readHolds => 8
  | .readKits => 9
  | .readPeers => 10
  | .readQueue => 11
  | .readSites => 12
  | .readSlots => 13
  | .postLot _ => 14
  | .withdrawLot _ => 15
  | .resumeLot _ => 16
  | .cede _ _ => 17
  | .clearRefusals => 18
  | .releaseConfirm _ => 19
  | .placeHold _ _ _ => 20
  | .liftHold _ _ => 21
  | .kitAdd _ _ _ => 22
  | .kitFound _ => 23
  | .kitServiced _ => 24
  | .kitRetire _ => 25
  | .kitFitted _ => 26
  | .kitRemoved _ => 27
  | .bandChange _ => 28
  | .bandReady _ => 29
  | .endStep _ _ => 30
  | .siteRestore _ => 31
  | .badSize t => t.toNat
  | .unknown t => t.toNat

/-- The 20 bytes of a CONFIGURE request (Table 11.4, 12.2). -/
def readConfigure : List Byte → Option Request
  | [au, rb, sc, ql, bi0, bi1, bu, pt, lr, bt0, bt1, al, fl, ws, wl, tb0, tb1, tl, it, ks] =>
    some (.configure
      { authority := au.toNat, reachable := rb, siteCount := sc.toNat, queueLimit := ql.toNat
        beaconInterval := beNat [bi0, bi1], bidUnit := bu.toNat, parkTimeout := pt.toNat, loadRetry := lr.toNat
        blockTimeout := beNat [bt0, bt1], attemptLimit := al.toNat, failLimit := fl.toNat, windowSize := ws.toNat
        windowFailLimit := wl.toNat, tripBins := BitVec.ofNat 16 (beNat [tb0, tb1]), tripLimit := tl.toNat
        insertionTimeout := it.toNat, keepOnSoftReset := ks.toNat })
  | _ => none

/-- `n` step records of 13 bytes (12.2). -/
def readSteps : Nat → List Byte → Option (List StepFields)
  | 0, [] => some []
  | n + 1, p0 :: p1 :: r :: b0 :: b1 :: c0 :: c1 :: c2 :: c3 :: bd :: f :: m0 :: m1 :: rest =>
    (readSteps n rest).map fun ss =>
      { program := beNat [p0, p1], revision := r.toNat, blocks := beNat [b0, b1]
        checksum := BitVec.ofNat 32 (beNat [c0, c1, c2, c3]), band := bd.toNat, family := f.toNat
        passBins := BitVec.ofNat 16 (beNat [m0, m1]) } :: ss
  | _, _ => none

/-- A POST LOT request: its size is judged by its step count (R181). -/
def readPostLot : List Byte → Option Request
  | a :: b :: c :: d :: t0 :: t1 :: u0 :: u1 :: al :: n :: rest =>
    (readSteps n.toNat rest).map fun ss =>
      .postLot ⟨beNat [a, b, c, d], beNat [t0, t1], beNat [u0, u1], al.toNat, ss⟩
  | _ => none

def readNone (r : Request) : List Byte → Option Request
  | [] => some r
  | _ => none

def readByte (f : Nat → Request) : List Byte → Option Request
  | [a] => some (f a.toNat)
  | _ => none

def readLotId (f : Nat → Request) : List Byte → Option Request
  | [a, b, c, d] => some (f (beNat [a, b, c, d]))
  | _ => none

def readLotIdStep (f : Nat → Nat → Request) : List Byte → Option Request
  | [a, b, c, d, k] => some (f (beNat [a, b, c, d]) k.toNat)
  | _ => none

def readPlaceHold : List Byte → Option Request
  | [sc, a, b, c, d, l] => some (.placeHold sc.toNat (BitVec.ofNat 32 (beNat [a, b, c, d])) l.toNat)
  | _ => none

def readLiftHold : List Byte → Option Request
  | [o, sn] => some (.liftHold o.toNat sn.toNat)
  | _ => none

def readKitAdd : List Byte → Option Request
  | [k, f, a, b, c] => some (.kitAdd k.toNat f.toNat (beNat [a, b, c]))
  | _ => none

/-- The payload of a known type; none when its size is not one the type allows. -/
def readPayload (type : Nat) (p : List Byte) : Option Request :=
  match type with
  | 1 => readConfigure p
  | 2 => readNone .join p
  | 3 => readNone .leave p
  | 4 => readNone .rejoin p
  | 5 => readNone .reset p
  | 6 => readNone .status p
  | 7 => readLotId .readLot p
  | 8 => readNone .readHolds p
  | 9 => readNone .readKits p
  | 10 => readNone .readPeers p
  | 11 => readNone .readQueue p
  | 12 => readNone .readSites p
  | 13 => readNone .readSlots p
  | 14 => readPostLot p
  | 15 => readLotId .withdrawLot p
  | 16 => readLotId .resumeLot p
  | 17 => readLotIdStep .cede p
  | 18 => readNone .clearRefusals p
  | 19 => readLotId .releaseConfirm p
  | 20 => readPlaceHold p
  | 21 => readLiftHold p
  | 22 => readKitAdd p
  | 23 => readByte .kitFound p
  | 24 => readByte .kitServiced p
  | 25 => readByte .kitRetire p
  | 26 => readByte .kitFitted p
  | 27 => readByte .kitRemoved p
  | 28 => readByte .bandChange p
  | 29 => readByte .bandReady p
  | 30 => readLotIdStep .endStep p
  | 31 => readByte .siteRestore p
  | _ => none

/-- A request by its type and payload (R173): a type outside 1 to 31 names no request. -/
def requestOf (type : Byte) (p : List Byte) : Request :=
  if 1 ≤ type.toNat && type.toNat ≤ 31 then (readPayload type.toNat p).getD (.badSize type) else .unknown type

/-! ### Bytes written (R182) -/

def AttemptCause.code : AttemptCause → Nat
  | .noReference => 1 | .noAnswer => 2 | .deferred => 3 | .referenceAbsent => 4 | .referenceLeft => 5 | .gap => 6
  | .silence => 7 | .overflow => 8 | .badEntry => 9 | .digest => 10 | .holdFull => 11

def DivergedCause.code : DivergedCause → Nat
  | .ahead => 1 | .digest => 2 | .holdFull => 3 | .orphaned => 4

def ClaimLostCause.code : ClaimLostCause → Nat
  | .ceded => 1 | .orphaned => 2 | .withdrawn => 3 | .shipped => 4 | .notOwnAfterCatchUp => 5 | .notOwn => 6

def PostFailedCause.code : PostFailedCause → Nat
  | .duplicate => 1 | .floorFull => 2 | .sendFailed => 3

def WithdrawFailedCause.code : WithdrawFailedCause → Nat
  | .notFound => 1 | .stepRunning => 2 | .sendFailed => 3

def NotFoundCause.code : NotFoundCause → Nat
  | .notFound => 1 | .sendFailed => 2

def HoldFailedCause.code : HoldFailedCause → Nat
  | .alreadyHeld => 1 | .holdFull => 2 | .sendFailed => 3

def HoldLostCause.code : HoldLostCause → Nat
  | .idPresent => 1 | .listFull => 2

def KitSubkind.code : KitSubkind → Nat
  | .add => 1 | .found => 4 | .serviced => 5 | .retire => 6

/-- TESTER PROTOCOL's reasons, which no one list orders, numbered by the order of R125, R126, R128 and R183 (log 33). -/
def TesterProtocolReason.code : TesterProtocolReason → Nat
  | .swapTimeout => 1 | .purgeTimeout => 2 | .unexpected => 3 | .badFrame => 4

def resetCauseCode : ResetCause → Nat
  | .power => 1 | .pin => 2 | .soft => 3

def cedeCauseCode : CedeCause → Nat
  | .hold => 1 | .load => 2 | .kit => 3 | .host => 4 | .leave => 5

/-- A list of one-byte members behind its count. -/
def listBytes (xs : List (List Byte)) : List Byte := byte xs.length :: xs.flatten

/-- The Step Counters with end pending (R130). -/
def countersBytes (c : StepCounters) : List Byte :=
  beBytes 4 (c.lot.getD 0) ++ [byte c.step] ++ beBytes 2 c.entered ++ beBytes 2 c.tested ++ beBytes 2 c.pass
    ++ beBytes 2 c.fail ++ beBytes 2 c.lost ++ beBytes 2 c.insertions ++ [flagByte c.endPending]

/-- The conditions found of a SHIP CONFLICT, numbered as R55 lists them. -/
def conflictBytes (c : ShipConflicts) : List Byte :=
  listBytes ((if c.untallied then [[1]] else []) ++ (if c.covered then [[2]] else [])
    ++ if c.suspended then [[3]] else [])

def holdIdBytes (h : HoldEntry) : List Byte := [byte h.origin, h.serial]

/-- The outcome of STEP TALLIED, with the step now WAITING. -/
def outcomeBytes : TallyOutcome → List Byte
  | .next k => [1, byte k]
  | .complete => [2, 0]
  | .spent => [3, 0]

/-- The cause of LOAD FAILED, with the tester's code for BLOCK (R123). -/
def loadCauseBytes : LoadFailedCause → List Byte
  | .block c => [1, byte c]
  | .timeout => [2, 0]
  | .sequence => [3, 0]
  | .verify => [4, 0]

/-- The type of a VERDICT (Table 12.6). -/
def verdictType : Nat := 144

/-- A notice's code and content (12.2, R182, log 33). TESTER PROTOCOL carries what its raising rule names, in that
order: the reason alone (R125, R126), kind, slot and reason (R128), kind and reason for a VERDICT (R138), reason and
type byte for a discarded message (R183). HANDLER PROTOCOL carries the mask with NO_SITE alone (R135, R136), bit n-1 for
site n, an order that no rule gives (log 33); HOLD LOST its cause where R155 raises it (R154 names none), HOLD LIFTED the
LIFT's sender where it is a peer (R157). RESUMED and RELEASE WAITING carry nothing and RESUME FAILED its cause alone, as
R98 and R165 name no other field. -/
def Notice.bytes : Notice → List Byte
  | .linkFault k s => [1, byte k, byte s]
  | .founded => [2]
  | .peerPresent p => [3, byte p]
  | .peerAbsent p => [4, byte p]
  | .idConflict => [5]
  | .diverged c => [6, byte c.code]
  | .parked => [7]
  | .left => [8]
  | .leaveFailed .badState => [9, 1]
  | .leaveFailed .stepRunning => [9, 2]
  | .joined c r => 10 :: beBytes 4 c.toNat ++ [byte r]
  | .catchUpFailed c r n => [11, byte c.code, optByte r, byte n]
  | .isolated c => [12, byte c.code]
  | .lotSpent l k => 13 :: beBytes 4 l ++ [byte k]
  | .lateHold l o sn => 14 :: beBytes 4 l ++ [byte o, sn]
  | .shipDone l q => 15 :: beBytes 4 l ++ beBytes 2 q
  | .shipConflict l s c => 16 :: beBytes 4 l ++ [byte s] ++ conflictBytes c
  | .posted l => 17 :: beBytes 4 l
  | .postFailed l c => 18 :: beBytes 4 l ++ [byte c.code]
  | .claimWon l k t => 19 :: beBytes 4 l ++ [byte k, byte t]
  | .claimLost l k c counters =>
    20 :: beBytes 4 l ++ [byte k, byte c.code] ++ match counters with
      | some n => countersBytes n
      | none => []
  | .bandNeeded l k b => 21 :: beBytes 4 l ++ [byte k, byte (bandCode b)]
  | .cedeFailed l k .stepRunning => 22 :: beBytes 4 l ++ [byte k, 1]
  | .cedeFailed l k .notFound => 22 :: beBytes 4 l ++ [byte k, 2]
  | .withdrawn l => 23 :: beBytes 4 l
  | .withdrawFailed l c => 24 :: beBytes 4 l ++ [byte c.code]
  | .resumed => [25]
  | .resumeFailed c => [26, byte c.code]
  | .stepTallied l k kit e p f lo i o =>
    27 :: beBytes 4 l ++ [byte k, byte kit] ++ beBytes 2 e ++ beBytes 2 p ++ beBytes 2 f ++ beBytes 2 lo
      ++ beBytes 2 i ++ outcomeBytes o
  | .tallyRefused l k e r => 28 :: beBytes 4 l ++ [byte k] ++ beBytes 2 e ++ beBytes 2 r
  | .releaseAssigned l o => 29 :: beBytes 4 l ++ [byte o]
  | .releaseWaiting => [30]
  | .kitNeeded l k f r t => 31 :: beBytes 4 l ++ [byte k, byte f, optByte r, optByte t]
  | .kitUpdated s k => [32, byte s.code, byte k]
  | .kitFailed s k .noEffect => [33, byte s.code, byte k, 1]
  | .kitFailed s k .sendFailed => [33, byte s.code, byte k, 2]
  | .kitMismatch k (some loc) => [34, byte k] ++ locationBytes loc
  | .kitMismatch k none => [34, byte k, 0, 0]
  | .loadDone p r s => 35 :: beBytes 2 p ++ [byte r, byte (slotCode s)]
  | .loadFailed p r s c n g =>
    36 :: beBytes 2 p ++ [byte r, byte (slotCode s)] ++ loadCauseBytes c ++ beBytes 2 n ++ [optByte g]
  | .testerProtocol k s .unexpected =>
    if k == some verdictType then [37, byte verdictType, byte TesterProtocolReason.unexpected.code]
    else [37, optByte k, optByte s, byte TesterProtocolReason.unexpected.code]
  | .testerProtocol k _ .badFrame => [37, byte TesterProtocolReason.badFrame.code, optByte k]
  | .testerProtocol _ _ r => [37, byte r.code]
  | .seatInTest => [38, 1]
  | .noSite m => [38, 2, m]
  | .siteMasked n c => [39, byte n, byte c]
  | .siteRetired n => [40, byte n]
  | .holdPlaced h => 41 :: holdBytes h
  | .holdFailed o sn c => [42, byte o, sn, byte c.code]
  | .holdLost t l r c =>
    [43, byte (scopeCode t)] ++ targetBytes t ++ [byte (levelCode l), byte (reasonCode r)] ++ match c with
      | some cause => [byte cause.code]
      | none => []
  | .holdLifted h s =>
    44 :: holdIdBytes h ++ [byte (scopeCode h.target)] ++ targetBytes h.target ++ [byte (reasonCode h.reason)] ++ match s with
      | some lifter => [byte lifter]
      | none => []
  | .liftFailed o sn c => [45, byte o, sn, byte c.code]
  | .held h l k ph =>
    46 :: holdIdBytes h ++ [byte (scopeCode h.target), byte (reasonCode h.reason)] ++ beBytes 4 l
      ++ [byte k, Config.entryPhaseCode ph]
  | .reset c => [47, byte (resetCauseCode c)]

/-- The configuration record in the form of a CONFIGURE request (R182). -/
def configBytes (c : ConfigRecord) : List Byte :=
  [flagByte (c.authority == .quality), c.reachable, byte c.siteCount, byte c.queueLimit] ++ beBytes 2 c.beaconInterval
    ++ [byte c.bidUnit, byte c.parkTimeout, flagByte c.loadRetry] ++ beBytes 2 c.blockTimeout
    ++ [byte c.attemptLimit, byte c.failLimit, byte c.windowSize, byte c.windowFailLimit]
    ++ beBytes 2 c.tripBins.toNat ++ [byte c.tripLimit, byte c.insertionTimeout, flagByte c.keepOnSoftReset]

/-- The number by which Config names an insertion state. -/
def insertionNumber : Insertion → Nat
  | .idle => 0
  | .waitingGate _ => 1
  | .inTest _ _ => 2

def statusBytes (r : StatusReport) : List Byte :=
  [byte (stationStateCode r.station), byte r.stationId, byte (resetCauseCode r.resetCause)] ++ configBytes r.config
    ++ beBytes 4 r.count.toNat ++ beBytes 4 r.digest.toNat ++ beBytes 2 r.junk ++ [byte r.sendEntries, byte r.hostShare,
      Config.attemptPhaseCode r.phase, byte r.attempts, flagByte r.serving, flagByte r.leaving,
      Config.insertionStateCode (insertionNumber r.insertion), Config.gateCode r.gate, flagByte r.noticesLost]
    ++ beBytes 2 r.unreported

/-- A record of `n` bytes that may be absent: its fields, each without a value, are then written 0 (R182). -/
def recordBytes {α : Type} (n : Nat) (f : α → List Byte) (o : Option α) : List Byte :=
  match o with
  | some x => f x
  | none => List.replicate n 0

def releaseBytes (r : ReleaseRec) : List Byte :=
  beBytes 4 r.lot ++ [flagByte r.waitingReported, flagByte r.countHoldRaised, flagByte r.shipStanding]

def requestBytes (r : KitRequest) : List Byte :=
  beBytes 4 r.lot ++ [byte r.step, byte r.family, Config.kitPhaseCode r.phase, optByte r.candidate]
    ++ listBytes (r.tried.map fun k => [byte k])

def peerBytes (r : PeerRec) : List Byte :=
  Config.peerStateCode r.state :: beBytes 2 (r.silence.getD 0) ++ recordBytes 15 beaconBytes r.beacon

def entryBytes (e : QueueEntry) : List Byte :=
  beBytes 4 e.lot ++ [byte e.step, Config.entryPhaseCode e.phase, optByte e.kitNeeded,
    optByte (e.bandNeeded.map bandCode), optByte (e.cede.map cedeCauseCode), flagByte e.orphaned]

def siteBytes (r : SiteRec) : List Byte := [Config.siteStateCode r.state, byte r.fails, byte r.masks]

def slotBytes (r : SlotRec) : List Byte :=
  match r.prog with
  | some p =>
    beBytes 2 p.program ++ [byte p.revision] ++ beBytes 4 p.checksum.toNat ++ [Config.slotStateCode r.state]
      ++ beBytes 2 p.expected ++ beBytes 2 p.done ++ [byte p.retries]
  | none =>
    beBytes 2 0 ++ [0] ++ beBytes 4 0 ++ [Config.slotStateCode r.state] ++ beBytes 2 0 ++ beBytes 2 0 ++ [0]

/-- The operation in flight; its slot is written 0 for a SWAP, which acts on both (R113, log 33). -/
def operationBytes (o : Operation) : List Byte :=
  [Config.opKindCode o.kind, optByte (o.slot.map slotCode)] ++ beBytes 2 o.timer

/-- The content of a response (R179, R182). R182 writes a list behind a count byte and does not say whether a table of fixed
length is one: the 62 Peer Table records and the 8 site records stand behind their count, the two slot records behind none
(log 33). -/
def Content.bytes : Content → List Byte
  | .none => []
  | .status r => statusBytes r
  | .lot l release => lotBytes l ++ [flagByte (l.confirmPresent && l.confirmed)] ++ recordBytes 7 releaseBytes release
  | .shipped id => Config.shippedContent id
  | .lotList ids ring => listBytes (ids.map (beBytes 4)) ++ ringBytes ring
  | .holds hs sn => listBytes (hs.map holdBytes) ++ [sn]
  | .kits ks fitted band stable request gives =>
    listBytes (ks.map kitBytes) ++ [optByte fitted, byte (bandCode band), Config.bandConditionCode stable]
      ++ recordBytes 9 requestBytes request ++ listBytes (gives.map fun k => [byte k])
  | .peers rs => listBytes (rs.map peerBytes)
  | .queue es refusals timers =>
    listBytes (es.map entryBytes) ++ listBytes (refusals.map fun p => beBytes 2 p.1 ++ [byte p.2]) ++ [byte timers]
  | .sites ss c window trip =>
    listBytes (ss.map siteBytes) ++ countersBytes c ++ listBytes (window.map fun x => [Config.unitResultCode x])
      ++ [byte trip]
  | .slots a s op => slotBytes a ++ slotBytes s ++ recordBytes 4 operationBytes op

/-- A response code (Table 11.2). -/
def RespCode.byte : RespCode → Byte
  | .ok => 0 | .badState => 1 | .badValue => 2 | .badId => 3 | .duplicate => 4 | .floorFull => 5 | .holdFull => 6
  | .notFound => 7 | .notAuthorized => 8 | .notOwner => 9 | .notComplete => 10 | .alreadyHeld => 11 | .queueFull => 12
  | .stepRunning => 13 | .unknownRequest => 14

/-- The type and payload of a message to the host (12.2). The type byte of a response to a request type of 128 or more
is 128 more modulo 256 (log 46). -/
def CellMsg.body : CellMsg → List Byte
  | .response r => byte (128 + r.type) :: RespCode.byte r.code :: byte r.index :: r.content.bytes
  | .discard .badFrame => [250, 16, 0]
  | .discard (.overrun t) => [250, 15, byte t]
  | .notice n => 251 :: n.bytes

def cellSync : Byte := 0xC3

/-- A message to the host as it stands on the Cell Line (Table 12.5). -/
def CellMsg.bytes (m : CellMsg) : List Byte :=
  let covered := beBytes 2 m.body.length ++ m.body
  cellSync :: covered ++ envelopeCrc covered

/-- The type and payload of a directive (Table 12.6). -/
def Directive.body : Directive → List Byte
  | .load s p r first count c =>
    [1, byte (slotCode s)] ++ beBytes 2 p ++ [byte r, byte first, blocksByte count] ++ beBytes 4 c.toNat
  | .verify s c => [2, byte (slotCode s)] ++ beBytes 4 c.toNat
  | .swap => [3]
  | .abort s => [4, byte (slotCode s)]

/-- A directive as it stands on the Tester Line (12.3). -/
def Directive.bytes (d : Directive) : List Byte :=
  let covered := byte d.body.length :: d.body
  testerSync :: covered ++ envelopeCrc covered

end Sys2Proof.Machine
end

