-- ==== Sys2Proof/Machine/Requests.lean ====
section
/-! DEFINITION. The requests of Table 11.1: what each does and how it is answered. -/

namespace Sys2Proof.Machine

/-- The answer to a request: code, field index, content (R173). -/
structure Answer where
  code : RespCode
  index : Nat
  content : Content
  deriving DecidableEq, Repr

def answer (c : RespCode) : Answer := ⟨c, 0, .none⟩
def okAnswer : Answer := ⟨.ok, 0, .none⟩
def badField (i : Nat) : Answer := ⟨.badValue, i, .none⟩
def report (c : Content) : Answer := ⟨.ok, 0, c⟩

/-- The index of the first field out of range (R181): fields with their indices and whether they are in range. -/
def firstBad : List (Nat × Bool) → Option Nat
  | [] => none
  | (i, ok) :: fs => if ok then firstBad fs else some i

/-- A host frame enqueued with host share, or QUEUE_FULL (R8). -/
def enqueueHost (body : FrameBody) (owner : Owner) (b : Blocks) : Answer × Blocks :=
  if b.lc.hostRoom then (okAnswer, offer body allStations owner true b) else (answer .queueFull, b)

/-! ### Presence Unit -/

/-- JOIN (R21). -/
def joinRequest (v : View) (b : Blocks) : Answer × Blocks :=
  if b.station != .offline then (answer .badState, b)
  else if v.id = 0 || v.id = 63 then (answer .badId, b)
  else (okAnswer, listen v b)

/-- Some Dispatch Queue entry names a step the replica shows RUNNING at this station (R34). -/
def queueRuns (v : View) (b : Blocks) : Bool :=
  b.du.queue.any fun e =>
    match v.rep.step? e.lot e.step with
    | some s => s.state.runningAt v.id
    | none => false

def isStepStart : FrameBody → Bool
  | .stepStart .. => true
  | _ => false

/-- The LEAVE sequence begins (R34): own BIDs and STEP STARTs withdrawn, every claimed step owed a CEDE. -/
def beginLeave (b : Blocks) : Blocks :=
  let b := markDue { b with du := { b.du with leaving := true } }
  let b := withdrawAll isStepStart (withdrawAll FrameBody.isBid b)
  setCedes .leave b.du.queue b

/-- LEAVE (R34). -/
def leaveRequest (v : View) (b : Blocks) : Answer × Blocks :=
  if !isWorking b.station then (answer .badState, b)
  else if queueRuns v b || b.iw.inTest then (answer .stepRunning, b)
  else if b.du.leaving then (answer .badState, b)
  else (okAnswer, beginLeave b)

/-- REJOIN (R35, log 34). Taken in FAULTED it leaves the attempt counter to the catch-up that follows (R76, log 48). -/
def rejoinRequest (v : View) (b : Blocks) : Answer × Blocks :=
  match b.station with
  | .faulted => (okAnswer, listen v b)
  | .isolated =>
    (okAnswer, startCatchUp v (abandonLeave .badState (enterState v .joining
      { b with pu := { b.pu with conflictRaised := false } })))
  | _ => (answer .badState, b)

/-! ### Cell Line Interface -/

/-- A RESET request is answered OK, and its reset is awaited (R178). -/
def resetRequest (b : Blocks) : Answer × Blocks := (okAnswer, { b with cli := { b.cli with resetAwaited := true } })

/-- What STATUS reports (R179). -/
def statusReport (v : View) (b : Blocks) : StatusReport where
  station := b.station
  stationId := v.id
  resetCause := b.cli.resetCause
  config := v.cfg
  count := v.count
  digest := v.digest
  junk := b.lc.junk
  sendEntries := b.lc.queue.length
  hostShare := b.lc.hostShare
  phase := b.cu.phase
  attempts := b.cu.attempts
  serving := b.cu.session.isSome
  leaving := b.du.leaving
  insertion := b.iw.insertion
  gate := b.iw.gate
  noticesLost := b.cli.noticesLost
  unreported := b.cli.unreported

/-- STATUS (R179): the flag and the count are cleared after both have been copied. -/
def statusRequest (v : View) (b : Blocks) : Answer × Blocks :=
  (report (.status (statusReport v b)), { b with cli := { b.cli with noticesLost := false, unreported := 0 } })

/-- READ LOT (R179). -/
def readLotAnswer (v : View) (b : Blocks) (lot : Nat) : Answer :=
  if lot = 0 then report (.lotList (v.rep.lots.map LotRec.lot) v.rep.ring)
  else
    match v.rep.lot? lot with
    | some l => report (.lot l (b.du.release? lot))
    | none => if v.rep.ring.contains lot then report (.shipped lot) else answer .notFound

/-- The 62 Peer Table records (R24, R179). -/
def peerTable (p : PresenceUnit) : List PeerRec := (List.range 62).map fun i => p.peer (i + 1)

/-- The four bytes of a hold target (12.1). -/
def holdTargetOf (scope : Nat) (t : BitVec 32) : Option HoldTarget :=
  targetOf scope ((t >>> 24).setWidth 8) ((t >>> 16).setWidth 8) ((t >>> 8).setWidth 8) (t.setWidth 8)

/-- A hold target in range (R151). -/
def targetInRange : HoldTarget → Bool
  | .lot id => id != 0
  | .device _ => true
  | .program p _ => p != 0
  | .kit k => k != 0
  | .station s => s != 0 && s != 63

/-- PLACE HOLD from its third check on (R151). -/
def placeHoldChecked (v : View) (t : HoldTarget) (l : Level) (b : Blocks) : Answer × Blocks :=
  if l == .quality && v.cfg.authority == .operator then (answer .notAuthorized, b)
  else if v.rep.heldAs t || ownHoldOn b t then (answer .alreadyHeld, b)
  else if Config.maxHolds ≤ v.rep.holds.length then (answer .holdFull, b)
  else if b.lc.hostRoom then (okAnswer, enqueueHold v .cli true t l .host b)
  else (answer .queueFull, b)

/-- PLACE HOLD (R151). -/
def placeHoldRequest (v : View) (scope : Nat) (target : BitVec 32) (level : Nat) (b : Blocks) : Answer × Blocks :=
  if !isWorking b.station then (answer .badState, b)
  else
    match holdTargetOf scope target, levelOf level with
    | none, _ => (badField 1, b)
    | some t, lv =>
      if !targetInRange t then (badField 2, b)
      else
        match lv with
        | none => (badField 3, b)
        | some l => placeHoldChecked v t l b

/-- LIFT HOLD (R156). Where two entries bear the hold ID, the level of the older one is the entry's level (log 25). -/
def liftHoldRequest (v : View) (origin serial : Nat) (b : Blocks) : Answer × Blocks :=
  let sn := byte serial
  if !isMember b.station then (answer .badState, b)
  else if origin = 0 || 62 < origin then (badField 1, b)
  else
    match v.rep.hold? origin sn with
    | none => (answer .notFound, b)
    | some h =>
      if h.level == .quality && v.cfg.authority == .operator then (answer .notAuthorized, b)
      else enqueueHost (.lift origin sn) .cli b

/-! ### Dispatch Unit -/

/-- The fields of one step of a POST LOT request, `base` being 5 + 7 (s - 1) (R78, R181). -/
def stepChecks (base : Nat) (f : StepFields) : List (Nat × Bool) :=
  [(base + 1, f.program != 0), (base + 3, 1 ≤ f.blocks && f.blocks ≤ 256), (base + 5, (bandOf f.band).isSome),
    (base + 6, f.family != 0), (base + 7, passSetNonEmpty f.passBins)]

def planChecks (base : Nat) : List StepFields → List (Nat × Bool)
  | [] => []
  | f :: fs => stepChecks base f ++ planChecks (base + 7) fs

/-- The fields of a POST LOT request in payload order (R78, R181). -/
def postChecks (f : LotFields) : List (Nat × Bool) :=
  [(1, f.lot != 0), (3, f.posted != 0), (5, 1 ≤ f.steps.length && f.steps.length ≤ 6)] ++ planChecks 5 f.steps

/-- The step specification of a POST LOT step in range. -/
def StepFields.spec (f : StepFields) : StepSpec :=
  ⟨f.program, f.revision, f.blocks, f.checksum, (bandOf f.band).getD .ambient, f.family, f.passBins⟩

/-- The POST of a POST LOT request. -/
def postOf (f : LotFields) : PostBody := ⟨f.lot, f.device, f.posted, f.lostAllowance, f.steps.map StepFields.spec⟩

/-- POST LOT (R78). -/
def postLotRequest (v : View) (f : LotFields) (b : Blocks) : Answer × Blocks :=
  if !isMember b.station then (answer .badState, b)
  else
    match firstBad (postChecks f) with
    | some i => (badField i, b)
    | none =>
      if (v.rep.lot? f.lot).isSome then (answer .duplicate, b)
      else if Config.maxLots ≤ v.rep.lots.length then (answer .floorFull, b)
      else enqueueHost (.post (postOf f)) .du b

/-- WITHDRAW LOT (R97). -/
def withdrawLotRequest (v : View) (lot : Nat) (b : Blocks) : Answer × Blocks :=
  if !isMember b.station then (answer .badState, b)
  else
    match v.rep.lot? lot with
    | none => (answer .notFound, b)
    | some l => if l.anyRunning then (answer .stepRunning, b) else enqueueHost (.withdraw lot) .du b

/-- RESUME LOT (R98). -/
def resumeLotRequest (v : View) (lot : Nat) (b : Blocks) : Answer × Blocks :=
  if !isMember b.station then (answer .badState, b)
  else
    match v.rep.lot? lot with
    | none => (answer .notFound, b)
    | some _ => enqueueHost (.resume lot) .du b

/-- CEDE (R96). That a READY head is evaluated at once on a cause HOST is log 63's. -/
def cedeRequest (lot step : Nat) (b : Blocks) : Answer × Blocks :=
  if !isWorking b.station then (answer .badState, b)
  else
    match b.du.entry? lot step with
    | none => (answer .notFound, b)
    | some e =>
      if !beforeRun e.phase then (answer .stepRunning, b)
      else if e.cede.isSome || b.lc.standing (· == .cede lot step) then
        (okAnswer, dueIfReady e (updateEntry lot step (fun e => { e with cede := some .host }) b))
      else if b.lc.hostRoom then (okAnswer, setCede .host lot step b)
      else (answer .queueFull, b)

/-- CLEAR REFUSALS (R100). An evaluation follows also where the list was empty (log 63). -/
def clearRefusalsRequest (b : Blocks) : Answer × Blocks :=
  (okAnswer, markDue { b with du := { b.du with refusals := [] } })

/-! ### Handler Record -/

/-- KIT ADD (R108). -/
def kitAddRequest (v : View) (kit family limit : Nat) (b : Blocks) : Answer × Blocks :=
  if !isMember b.station then (answer .badState, b)
  else
    match firstBad [(1, kit != 0), (2, family != 0), (3, limit != 0)] with
    | some i => (badField i, b)
    | none =>
      if (v.rep.kit? kit).isSome then (answer .duplicate, b)
      else if Config.maxKits ≤ v.rep.kits.length then (answer .floorFull, b)
      else enqueueHost (.kitAdd kit family limit) .hr b

/-- KIT FOUND, KIT SERVICED and KIT RETIRE (R108): `here` is the location the kit must have. -/
def kitMoveRequest (v : View) (kit : Nat) (here : KitRec → Bool) (body : FrameBody) (b : Blocks) : Answer × Blocks :=
  if !isMember b.station then (answer .badState, b)
  else if kit = 0 then (badField 1, b)
  else
    match v.rep.kit? kit with
    | none => (answer .notFound, b)
    | some r => if here r then enqueueHost body .hr b else (answer .badState, b)

/-- The trip counter cleared (R106, R143). -/
def clearTrip (b : Blocks) : Blocks := setIw { b.iw with trip := 0 } b

/-- The kit request after a kit has been fitted (R106): it ends with a usable kit, else the fitted kit is in the way. -/
def requestAfterFitting (v : View) (k : Nat) (b : Blocks) : Blocks :=
  match b.hr.request with
  | some r =>
    if (usableFitted v b.hr r.family).isSome then endRequest b
    else needRemoval r k b
  | none => b

/-- KIT FITTED (R106). For the kit already fitted it leaves a kit request as it is (log 54). -/
def kitFittedRequest (v : View) (kit : Nat) (b : Blocks) : Answer × Blocks :=
  if !isWorking b.station then (answer .badState, b)
  else if !kitAtHere v kit || b.lc.inTransmission (.kitGive kit) then (answer .badState, b)
  else
    match b.hr.fitted with
    | some k => if k = kit then (okAnswer, clearTrip b) else (answer .badState, b)
    | none =>
      (okAnswer, requestAfterFitting v kit
        (clearTrip (withdrawFrame (.kitGive kit) (dropGive kit (setFitted (some kit) b)))))

/-- A request in REMOVAL chooses again once nothing is fitted (R107). One in FITTING whose candidate KIT REMOVED names
keeps its phase and that candidate, though the kit is given back (log 54). -/
def requestAfterRemoval (v : View) (b : Blocks) : Blocks :=
  match b.hr.request with
  | some r => if r.phase == .removal && b.hr.fitted.isNone then chooseKit v r b else b
  | none => b

/-- KIT REMOVED (R107). -/
def kitRemovedRequest (v : View) (kit : Nat) (b : Blocks) : Answer × Blocks :=
  if b.station == .offline then (answer .badState, b)
  else if b.hr.fitted != some kit && !kitAtHere v kit then (answer .notFound, b)
  else if b.hr.fitted == some kit && b.du.headInRun then (answer .stepRunning, b)
  else
    let b := if b.hr.fitted == some kit then setFitted none b else b
    let b := if kitAtHere v kit then giveBack kit b else b
    (okAnswer, requestAfterRemoval v b)

/-- BAND CHANGE (R111). -/
def bandChangeRequest (v : View) (band : Nat) (b : Blocks) : Answer × Blocks :=
  match bandOf band with
  | none => (badField 1, b)
  | some x =>
    if !reaches v.cfg x then (badField 1, b)
    else if b.du.headInRun then (answer .stepRunning, b)
    else (okAnswer, setBand x false b)

/-- BAND READY (R112). -/
def bandReadyRequest (band : Nat) (b : Blocks) : Answer × Blocks :=
  match bandOf band with
  | none => (badField 1, b)
  | some x =>
    if x != b.hr.band then (badField 1, b)
    else if b.hr.stable then (okAnswer, b)
    else (okAnswer, setBand x true b)

/-! ### Insertion Watch -/

/-- A recorded mask in WAITING GATE is dropped; HALT is left as it is (R146). -/
def dropMask (b : Blocks) : Blocks :=
  match b.iw.insertion with
  | .waitingGate _ => setIw { b.iw with insertion := .idle } b
  | _ => b

/-- END STEP (R146). An entry that is ENDING already is NOT_FOUND (log 43). -/
def endStepRequest (v : View) (lot step : Nat) (b : Blocks) : Answer × Blocks :=
  if !isWorking b.station then (answer .badState, b)
  else
    match b.du.queue with
    | h :: _ =>
      if h.lot == lot && h.step == step && h.phase == .running then
        let pending := setCounters { b.iw.counters with endPending := true } b
        if b.iw.inTest then (okAnswer, pending) else (okAnswer, endStep v lot (dropMask pending))
      else (answer .notFound, b)
    | [] => (answer .notFound, b)

/-- The site record after a restore (R141). -/
def restoreSite (n : Nat) (b : Blocks) : Blocks :=
  let r := b.iw.site n
  if r.state == .masked then
    if r.masks < 3 then setSite n { r with state := .enabled, fails := 0 } b
    else raise (.siteRetired n) (setSite n { r with state := .retired } b)
  else b

/-- SITE RESTORE (R141). -/
def siteRestoreRequest (v : View) (site : Nat) (b : Blocks) : Answer × Blocks :=
  if site = 0 || 8 < site || v.cfg.siteCount < site then (badField 1, b) else (okAnswer, restoreSite site b)

/-! ### Requests that change more than the blocks -/

/-- The fields of a CONFIGURE request with their ranges (Table 11.4, R176, log 16). -/
def configChecks (f : ConfigFields) : List (Nat × Bool) :=
  [(1, f.authority ≤ 1), (2, 1 ≤ f.reachable.toNat && f.reachable.toNat ≤ 7), (3, 1 ≤ f.siteCount && f.siteCount ≤ 8),
    (4, 1 ≤ f.queueLimit && f.queueLimit ≤ 8),
    (5, 50 ≤ f.beaconInterval && f.beaconInterval ≤ 1000 && f.beaconInterval % 10 == 0),
    (6, 1 ≤ f.bidUnit && f.bidUnit ≤ 50), (7, f.parkTimeout ≤ 255), (8, f.loadRetry ≤ 1),
    (9, 10 ≤ f.blockTimeout && f.blockTimeout ≤ 2550 && f.blockTimeout % 10 == 0),
    (10, 3 ≤ f.attemptLimit && f.attemptLimit ≤ 6), (11, 2 ≤ f.failLimit && f.failLimit ≤ 31),
    (12, 8 ≤ f.windowSize && f.windowSize ≤ 64),
    (13, 1 ≤ f.windowFailLimit && f.windowFailLimit ≤ f.windowSize), (14, !f.tripBins.getLsbD 0),
    (15, 1 ≤ f.tripLimit && f.tripLimit ≤ 255), (16, 1 ≤ f.insertionTimeout && f.insertionTimeout ≤ 60),
    (17, f.keepOnSoftReset ≤ 1)]

/-- The configuration record a CONFIGURE request in range sets (R176). -/
def configOf (f : ConfigFields) : ConfigRecord where
  authority := if f.authority = 1 then .quality else .operator
  reachable := f.reachable
  siteCount := f.siteCount
  queueLimit := f.queueLimit
  beaconInterval := f.beaconInterval
  bidUnit := f.bidUnit
  parkTimeout := f.parkTimeout
  loadRetry := f.loadRetry == 1
  blockTimeout := f.blockTimeout
  attemptLimit := f.attemptLimit
  failLimit := f.failLimit
  windowSize := f.windowSize
  windowFailLimit := f.windowFailLimit
  tripBins := f.tripBins
  tripLimit := f.tripLimit
  insertionTimeout := f.insertionTimeout
  keepOnSoftReset := f.keepOnSoftReset == 1

/-- CONFIGURE (R176). A smaller window size leaves the Yield Window as it is (R142, log 44). -/
def configureRequest (f : ConfigFields) (s : State) : Answer × State :=
  if s.blocks.station != .offline then (answer .badState, s)
  else
    match firstBad (configChecks f) with
    | some i => (badField i, s)
    | none => (okAnswer, { s with config := configOf f })

/-- Release confirmed set to yes on a lot where it is present (R167). -/
def confirmLot (l : LotRec) : LotRec := if l.confirmPresent then { l with confirmed := true } else l

/-- RELEASE CONFIRM (R167). -/
def releaseConfirmRequest (lot : Nat) (s : State) : Answer × State :=
  match s.re.replica.lot? lot with
  | none => (answer .notFound, s)
  | some l =>
    if !l.complete then (answer .notComplete, s)
    else if l.releaseOwner != some s.stationId then (answer .notOwner, s)
    else
      let s := { s with re := { s.re with replica := s.re.replica.updateLot lot confirmLot } }
      (okAnswer, s.mapBlocks fun v b => releaseCheck v lot b)

/-! ### Every request -/

/-- A request that acts on the blocks alone, passed to its owner (Table 11.1). -/
def blocksRequest (v : View) (r : Request) (b : Blocks) : Answer × Blocks :=
  match r with
  | .configure _ => (answer .badState, b)
  | .join => joinRequest v b
  | .leave => leaveRequest v b
  | .rejoin => rejoinRequest v b
  | .reset => resetRequest b
  | .status => statusRequest v b
  | .readLot lot => (readLotAnswer v b lot, b)
  | .readHolds => (report (.holds v.rep.holds b.cli.serial), b)
  | .readKits => (report (.kits v.rep.kits b.hr.fitted b.hr.band b.hr.stable b.hr.request b.hr.gives), b)
  | .readPeers => (report (.peers (peerTable b.pu)), b)
  | .readQueue => (report (.queue b.du.queue b.du.refusals b.du.timers.length), b)
  | .readSites => (report (.sites b.iw.sites b.iw.counters b.iw.window b.iw.trip), b)
  | .readSlots => (report (.slots b.le.active b.le.staged b.le.op), b)
  | .postLot f => postLotRequest v f b
  | .withdrawLot lot => withdrawLotRequest v lot b
  | .resumeLot lot => resumeLotRequest v lot b
  | .cede lot step => cedeRequest lot step b
  | .clearRefusals => clearRefusalsRequest b
  | .releaseConfirm _ => (answer .notFound, b)
  | .placeHold scope target level => placeHoldRequest v scope target level b
  | .liftHold origin serial => liftHoldRequest v origin serial b
  | .kitAdd kit family limit => kitAddRequest v kit family limit b
  | .kitFound kit => kitMoveRequest v kit KitRec.isStranded (.kitFound kit) b
  | .kitServiced kit => kitMoveRequest v kit KitRec.onShelf (.kitServiced kit) b
  | .kitRetire kit => kitMoveRequest v kit KitRec.onShelf (.kitRetire kit) b
  | .kitFitted kit => kitFittedRequest v kit b
  | .kitRemoved kit => kitRemovedRequest v kit b
  | .bandChange band => bandChangeRequest v band b
  | .bandReady band => bandReadyRequest band b
  | .endStep lot step => endStepRequest v lot step b
  | .siteRestore site => siteRestoreRequest v site b
  | .badSize _ => (badField 0, b)
  | .unknown _ => (answer .unknownRequest, b)

/-- A request acted upon (R173, Table 11.1). -/
def handle (r : Request) (s : State) : Answer × State :=
  match r with
  | .configure f => configureRequest f s
  | .releaseConfirm lot => releaseConfirmRequest lot s
  | r =>
    let (a, b) := blocksRequest s.view r s.blocks
    (a, { s with blocks := b })

end Sys2Proof.Machine
end

