-- ==== Sys2Proof/Machine/CellLine.lean ====
section
/-! DEFINITION. The Cell Line: the receiver of bytes (R172), the Request FIFO and the taking of requests (R173), the
Discard List and the transmitter (R174). -/

namespace Sys2Proof.Machine

def setCli (c : CellLineInterface) (b : Blocks) : Blocks := { b with cli := c }

/-! ### Discard reports and the Request FIFO -/

/-- A discard report made (R174). -/
def reportDiscard (r : DiscardReport) (b : Blocks) : Blocks :=
  if b.cli.discards.length < Config.maxDiscards then setCli { b.cli with discards := b.cli.discards ++ [r] } b
  else setCli { b.cli with unreported := min 65535 (b.cli.unreported + 1) } b

/-- A request offered to the Request FIFO (R173). -/
def offerRequest (r : Request) (b : Blocks) : Blocks :=
  if b.cli.fifo.length < Config.maxFifo then setCli { b.cli with fifo := b.cli.fifo ++ [r] } b
  else reportDiscard (.overrun r.type) b

/-- A request may be taken (R173). -/
def canTake (c : CellLineInterface) : Bool := !c.fifo.isEmpty && c.resp.isNone && !c.resetAwaited

/-- What a taking does before the request is acted upon (R32, R33, R173). -/
def wake (v : View) (b : Blocks) : Blocks :=
  if b.station == .parked then settle v (unpark v b)
  else { b with pu := { b.pu with parkTimer := b.pu.parkTimer.map fun _ => parkMs v } }

/-- The oldest request taken: acted upon, and its response placed in the response slot (R173). -/
def takeRequest (s : State) : State :=
  match s.blocks.cli.fifo with
  | r :: rest =>
    if canTake s.blocks.cli then
      let s := s.mapBlocks fun v b => wake v (setCli { b.cli with fifo := rest } b)
      let (a, s) := handle r s
      s.mapBlocks fun _ b => setCli { b.cli with resp := some ⟨r.type, a.code, a.index, a.content⟩ } b
    else s
  | [] => s

/-- A complete request message (R172, R173): offered, and taken when it can be. -/
def request (r : Request) (s : State) : State := (takeRequest (s.mapBlocks fun _ b => offerRequest r b)).finish

/-! ### The receiver (R172) -/

/-- A Cell Line message whose bytes are all here: `covered` is its length bytes, type and payload. -/
def judgeCell (covered crc rest after : List Byte) : RxStep Request :=
  match covered with
  | _ :: _ :: type :: payload => if crc = envelopeCrc covered then .good (requestOf type payload) after else .bad none rest
  | _ => .bad none rest

/-- The Cell Line's receiver at the front of its bytes: after a BAD_FRAME it looks again from the byte after the
discarded message's sync byte (R172). -/
def cellFront (bs : List Byte) : RxStep Request :=
  match bs with
  | [] => .wait []
  | s :: rest =>
    if s = cellSync then
      match rest with
      | l0 :: l1 :: more =>
        let len := beNat [l0, l1]
        if len = 0 || 2049 < len then .bad none rest
        else if more.length < len + 2 then .wait bs
        else judgeCell (l0 :: l1 :: more.take len) ((more.drop len).take 2) rest (more.drop (len + 2))
      | _ => .wait bs
    else .skip rest

/-- The partial Cell Line message kept. -/
def setCellRx (bs : List Byte) (s : State) : State := s.mapBlocks fun _ b => setCli { b.cli with rx := bs } b

/-- The bytes read, message by message; every step takes at least one byte, so `n` is their number and one. -/
def receiveCell : Nat → List Byte → State → State
  | 0, bs, s => setCellRx bs s
  | n + 1, bs, s =>
    match cellFront bs with
    | .wait kept => setCellRx kept s
    | .skip rest => receiveCell n rest s
    | .bad _ rest => receiveCell n rest (s.mapBlocks fun _ b => reportDiscard .badFrame b)
    | .good r rest => receiveCell n rest (request r s)

/-- A run of bytes on the Cell Line (R172). -/
def cellBytes (bs : List Byte) (s : State) : State :=
  let all := s.blocks.cli.rx ++ bs
  receiveCell (all.length + 1) all s

/-- More than 1 ms between two bytes: the partial message is discarded with BAD_FRAME, and what is left of it, which
has waited as long, with it (R172, log 20). -/
def dropCellPartial : Nat → State → State
  | 0, s => s
  | n + 1, s =>
    match s.blocks.cli.rx with
    | [] => s
    | _ :: rest =>
      dropCellPartial n
        (receiveCell (rest.length + 1) rest (State.mapBlocks (setCellRx [] s) fun _ b => reportDiscard .badFrame b))

def cellByteTimeout (s : State) : State := dropCellPartial s.blocks.cli.rx.length s

/-! ### The transmitter (R174) -/

/-- The message the transmitter takes up next: response, discard report, notice (R174). One taken up between the OK of a
RESET request and its reset, while R178 has the transmitter busy, is the next of these too (log 21). -/
def nextMessage (c : CellLineInterface) : Option (CellMsg × CellLineInterface) :=
  match c.resp with
  | some r => some (.response r, { c with resp := none })
  | none =>
    match c.discards with
    | d :: ds => some (.discard d, { c with discards := ds })
    | [] =>
      match c.notices with
      | n :: ns => some (.notice n, { c with notices := ns })
      | [] => none

/-- The transmitter, being free, takes up a message; a response that leaves its slot lets the next request be taken
(R173, R174). -/
def cellTransmit (s : State) : State :=
  match nextMessage s.blocks.cli with
  | some (m, c) => (takeRequest { s with blocks := setCli { c with tx := some m } s.blocks }).finish
  | none => s

end Sys2Proof.Machine
end

