-- ==== Sys2Proof/Machine/Timers.lean ====
section
/-! DEFINITION. The timers: their expiries (R23, R25, R26, R32, R64, R65, R71, R75, R85), each of which acts only while
its timer runs, and the millisecond that passes while no command waits (log 2). -/

namespace Sys2Proof.Machine

/-! ### The Presence Unit's timers -/

/-- Some PRESENT peer's last beacon shows ACTIVE or PARKED (R23). -/
def memberPresent (b : Blocks) : Bool := b.pu.peers.any fun p => p.state == .present && p.showsMember

/-- A PRESENT peer does not keep this station from founding (R23): its beacon is recorded, and if it shows LISTENING or
JOINING its ID is higher. -/
def yieldsTo (v : View) (p : PeerRec) : Bool :=
  match p.beacon with
  | some c => !(c.state == .listening || c.state == .joining) || v.id < p.id
  | none => false

/-- This station is the one of the joiners that founds (R23). -/
def mayFound (v : View) (b : Blocks) : Bool := b.pu.peers.all fun p => p.state != .present || yieldsTo v p

def setListen (t : Option Nat) (w : Bool) (b : Blocks) : Blocks := { b with pu := { b.pu with listenTimer := t, listenWait := w } }

/-- The examination at the end of a listen period in the listen wait (R23). -/
def examineListen (v : View) (b : Blocks) : Blocks :=
  if memberPresent b then startCatchUp v (setListen none false b)
  else if mayFound v b then found v b
  else setListen (some Config.listenMs) true b

/-- The listen timer expires (R23). -/
def listenExpired (v : View) (b : Blocks) : Blocks :=
  match b.pu.listenTimer with
  | some _ =>
    if b.station == .listening then found v b
    else if b.station == .joining && b.pu.listenWait then examineListen v b
    else setListen none b.pu.listenWait b
  | none => b

/-- The beacon timer expires (R26). -/
def beaconExpired (v : View) (b : Blocks) : Blocks :=
  match b.pu.beaconTimer with
  | some _ => offerBeacon { b with pu := { b.pu with beaconTimer := some v.cfg.beaconInterval } }
  | none => b

/-- What the Catch-up Unit does when a peer becomes ABSENT (R64, R65, R70, R71). -/
def catchUpAbsent (v : View) (p : Nat) (b : Blocks) : Blocks :=
  let b := match b.cu.session with
    | some ss => if ss.requester == p then endSession b else b
    | none => b
  if attemptRuns b.cu.phase && b.cu.reference == some p then failAttempt v .referenceAbsent b else b

/-- The limit of a peer's silence timer in ms: 4 times the beacon interval of its last-beacon fields, which carry it in
units of 10 ms, or 4,000 while no beacon of it is recorded (R25). -/
def PeerRec.silenceLimit (r : PeerRec) : Nat :=
  match r.beacon with
  | some c => 4 * (10 * c.interval)
  | none => 4000

/-- The silence timer of a PRESENT peer has passed its limit (R25). -/
def PeerRec.silent (r : PeerRec) : Bool :=
  r.state == .present && match r.silence with
    | some n => r.silenceLimit < n
    | none => false

/-- The silence timer of a PRESENT peer passes its limit (R25); within its limit nothing has expired (log 2). -/
def silenceExpired (v : View) (p : Nat) (b : Blocks) : Blocks :=
  let r := b.pu.peer p
  if r.silent then
    let b := { b with pu := { b.pu with peers := setPeer { r with state := .absent, silence := none } b.pu.peers } }
    catchUpAbsent v p (orphanCheck v (raise (.peerAbsent p) b))
  else b

/-- The park timer expires (R32). -/
def parkExpired (v : View) (b : Blocks) : Blocks :=
  match b.pu.parkTimer with
  | some _ => if b.station == .active then park v b else b
  | none => b

/-! ### The Catch-up Unit's timers -/

/-- The answer timer expires (R64). -/
def answerExpired (v : View) (b : Blocks) : Blocks :=
  match b.cu.answerTimer with
  | some _ => failAttempt v .noAnswer b
  | none => b

/-- The defer timer expires: REQUESTING again, with a new REQ to the same reference (R65). -/
def deferExpired (b : Blocks) : Blocks :=
  match b.cu.deferTimer, b.cu.reference with
  | some _, some r => enqueueReq r { b with cu := { b.cu with phase := .requesting, deferTimer := none } }
  | _, _ => b

/-- The snapshot timer expires (R71). -/
def snapshotExpired (v : View) (b : Blocks) : Blocks :=
  match b.cu.snapshotTimer with
  | some _ => failAttempt v .silence b
  | none => b

/-- The retry timer expires (R75). -/
def retryExpired (v : View) (b : Blocks) : Blocks :=
  match b.cu.retryTimer with
  | some _ => beginAttempt v b
  | none => b

/-! ### Deference timers -/

/-- The station is eligible for a step of the replica (R81). -/
def eligibleFor (v : View) (b : Blocks) (lot step : Nat) : Bool :=
  match v.rep.lot? lot with
  | some l =>
    match l.step? step with
    | some s => eligible v b l s
    | none => false
  | none => false

/-- A deference timer expires: a station still eligible bids (R85). -/
def deferenceExpired (v : View) (lot step : Nat) (b : Blocks) : Blocks :=
  if b.du.deferring lot step then
    let b := stopDeference lot step b
    if eligibleFor v b lot step then enqueueBid lot step b else b
  else b

/-! ### A millisecond (log 2) -/

/-- A running timer counts down and stays at 0 until its expiry is taken. -/
def down (t : Option Nat) : Option Nat := t.map fun n => n - 1

/-- A silence timer counts up (R25, log 23). -/
def tickPeer (p : PeerRec) : PeerRec := { p with silence := p.silence.map fun n => min 65535 (n + 1) }

def tickPu (p : PresenceUnit) : PresenceUnit :=
  { p with peers := p.peers.map tickPeer, beaconTimer := down p.beaconTimer, listenTimer := down p.listenTimer,
           parkTimer := down p.parkTimer }

def tickCu (c : CatchUpUnit) : CatchUpUnit :=
  { c with answerTimer := down c.answerTimer, snapshotTimer := down c.snapshotTimer, deferTimer := down c.deferTimer,
           retryTimer := down c.retryTimer }

def tickInsertion : Insertion → Insertion
  | .inTest m n => .inTest m (n - 1)
  | i => i

/-- One millisecond passes: every timer counts, nothing expires by itself (log 2). -/
def tick (s : State) : State :=
  { s with blocks := { s.blocks with
      pu := tickPu s.blocks.pu
      cu := tickCu s.blocks.cu
      du := { s.blocks.du with timers := s.blocks.du.timers.map fun t => { t with remaining := t.remaining - 1 } }
      le := { s.blocks.le with op := s.blocks.le.op.map fun o => { o with timer := o.timer - 1 } }
      iw := { s.blocks.iw with insertion := tickInsertion s.blocks.iw.insertion } } }

end Sys2Proof.Machine
end

