-- ==== Sys2Proof/Machine/Resets.lean ====
section
/-! DEFINITION. The three kinds of reset (R177, R178, and every block's own rule: R6, R18 to R20, R36, R61, R77, R102,
R113, R130, R149, R163). -/

namespace Sys2Proof.Machine

/-- A site record after a pin reset or a RESET request: the mask count is kept, a count of 3 leaves the site RETIRED
(R130). -/
def keepMasks (r : SiteRec) : SiteRec := ⟨if 3 ≤ r.masks then .retired else .enabled, 0, r.masks⟩

/-- The part after a reset: the command queue is outside the part and stays. -/
def afterReset (s : State) (straps : BitVec 6) (cfg : ConfigRecord) (b : Blocks) : State where
  pending := s.pending
  stationId := straps.toNat
  config := cfg
  re := .reset
  blocks := b

/-- Power-on (R177). -/
def powerOn (straps : BitVec 6) (s : State) : State :=
  afterReset s straps .default (.reset .power 0 0 (List.replicate 8 .fresh))

/-- The RESET pin (R177). -/
def pinResetState (straps : BitVec 6) (s : State) : State :=
  afterReset s straps .default (.reset .pin 0 0 (s.blocks.iw.sites.map keepMasks))

/-- The reset a RESET request asks for (R177, R178): it comes once its OK response has been taken up by the
transmitter and sent; otherwise there is none to come (log 21). -/
def softResetState (straps : BitVec 6) (s : State) : State :=
  if s.blocks.cli.resetAwaited && s.blocks.cli.resp.isNone then
    afterReset s straps (if s.config.keepOnSoftReset then s.config else .default)
      (.reset .soft s.blocks.lc.junk s.blocks.cli.unreported (s.blocks.iw.sites.map keepMasks))
  else s

end Sys2Proof.Machine
end

