-- ==== Sys2Proof/Machine/ExecLink.lean ====
section
/-! DEFINITION. The commands of the reset lines and of the Floor Link (chapters 1 and 11). -/

namespace Sys2Proof.Machine

/-- The effect of a command on the blocks alone, with the evaluations that follow it (log 4). -/
def onBlocks (f : View → Blocks → Blocks) (s : State) : Host.Outcome State Fault Refusal := .next (State.finish (s.mapBlocks f))

/-- POWER_ON_RESET (R177). -/
def execPowerOnReset (straps : BitVec 6) (s : State) : Host.Outcome State Fault Refusal := .next (powerOn straps s)

/-- PIN_RESET (R177). -/
def execPinReset (straps : BitVec 6) (s : State) : Host.Outcome State Fault Refusal := .next (pinResetState straps s)

/-- SOFT_RESET (R178). -/
def execSoftReset (straps : BitVec 6) (s : State) : Host.Outcome State Fault Refusal := .next (softResetState straps s)

/-- TRANSMIT_START (R12). -/
def execTransmitStart (s : State) : Host.Outcome State Fault Refusal := .next (s.mapBlocks transmitStart)

/-- ARBITRATION_LOST (R14). -/
def execArbitrationLost (s : State) : Host.Outcome State Fault Refusal := .next (s.mapBlocks arbitrationLost)

/-- TRANSMIT_FAULT (R16). -/
def execTransmitFault (s : State) : Host.Outcome State Fault Refusal := .next (s.mapBlocks transmitFault)

/-- FRAME_END (R5). -/
def execFrameEnd (r : Reception) (s : State) : Host.Outcome State Fault Refusal := .next (frameEnd r s)

end Sys2Proof.Machine
end

