-- ==== Sys2Proof/Machine/ExecTimers.lean ====
section
/-! DEFINITION. The commands of the timers of presence, catch-up and dispatch. -/

namespace Sys2Proof.Machine

/-- LISTEN_TIMER_EXPIRY (R23). -/
def execListenTimerExpiry (s : State) : Host.Outcome State Fault Refusal := onBlocks listenExpired s

/-- BEACON_TIMER_EXPIRY (R26). -/
def execBeaconTimerExpiry (s : State) : Host.Outcome State Fault Refusal := onBlocks beaconExpired s

/-- SILENCE_TIMER_EXPIRY (R25). -/
def execSilenceTimerExpiry (peer : Nat) (s : State) : Host.Outcome State Fault Refusal := onBlocks (fun v b => silenceExpired v peer b) s

/-- PARK_TIMER_EXPIRY (R32). -/
def execParkTimerExpiry (s : State) : Host.Outcome State Fault Refusal := onBlocks parkExpired s

/-- ANSWER_TIMER_EXPIRY (R64). -/
def execAnswerTimerExpiry (s : State) : Host.Outcome State Fault Refusal := onBlocks answerExpired s

/-- DEFER_TIMER_EXPIRY (R65). -/
def execDeferTimerExpiry (s : State) : Host.Outcome State Fault Refusal := onBlocks (fun _ b => deferExpired b) s

/-- SNAPSHOT_TIMER_EXPIRY (R71). -/
def execSnapshotTimerExpiry (s : State) : Host.Outcome State Fault Refusal := onBlocks snapshotExpired s

/-- RETRY_TIMER_EXPIRY (R75). -/
def execRetryTimerExpiry (s : State) : Host.Outcome State Fault Refusal := onBlocks retryExpired s

/-- DEFERENCE_TIMER_EXPIRY (R85). -/
def execDeferenceTimerExpiry (lot step : Nat) (s : State) : Host.Outcome State Fault Refusal := onBlocks (fun v b => deferenceExpired v lot step b) s

end Sys2Proof.Machine
end

