-- ==== Sys2Proof/Machine/ExecTester.lean ====
section
/-! DEFINITION. The commands of the Tester Line and the handler (chapters 7 and 8). -/

namespace Sys2Proof.Machine

/-- BLOCK_TIMEOUT (R122). -/
def execBlockTimeout (s : State) : Host.Outcome State Fault Refusal := onBlocks blockExpired s

/-- VERIFY_TIMEOUT (R124). -/
def execVerifyTimeout (s : State) : Host.Outcome State Fault Refusal := onBlocks verifyExpired s

/-- SWAP_TIMEOUT (R125). -/
def execSwapTimeout (s : State) : Host.Outcome State Fault Refusal := onBlocks (fun _ b => swapExpired b) s

/-- PURGE_TIMEOUT (R126). -/
def execPurgeTimeout (s : State) : Host.Outcome State Fault Refusal := onBlocks (fun _ b => purgeExpired b) s

/-- BLOCK_OK (R120). -/
def execBlockOk (slot n : Nat) (s : State) : Host.Outcome State Fault Refusal := onBlocks (fun v b => blockOk v slot n b) s

/-- BLOCK_BAD (R121). -/
def execBlockBad (slot n cause : Nat) (s : State) : Host.Outcome State Fault Refusal := onBlocks (fun v b => blockBad v slot n cause b) s

/-- LOAD_END (R120). -/
def execLoadEnd (slot : Nat) (s : State) : Host.Outcome State Fault Refusal := onBlocks (fun v b => loadEnd v slot b) s

/-- VERIFY_RESULT (R124). -/
def execVerifyResult (slot : Nat) (isMatch : Bool) (s : State) : Host.Outcome State Fault Refusal := onBlocks (fun v b => verifyResult v slot isMatch b) s

/-- SWAP_DONE (R125). -/
def execSwapDone (s : State) : Host.Outcome State Fault Refusal := onBlocks (fun _ b => swapDone b) s

/-- PURGE_DONE (R126). -/
def execPurgeDone (slot : Nat) (s : State) : Host.Outcome State Fault Refusal := onBlocks (fun _ b => purgeDone slot b) s

/-- TESTER_MESSAGE_DISCARD (R183). -/
def execTesterMessageDiscard (bytes : List Byte) (s : State) : Host.Outcome State Fault Refusal := onBlocks (fun v b => testerBytes v bytes b) s

/-- TESTER_BYTE_TIMEOUT (R183). -/
def execTesterByteTimeout (s : State) : Host.Outcome State Fault Refusal := onBlocks testerByteTimeout s

/-- SEAT (R135). -/
def execSeat (occupancy : SiteMask) (s : State) : Host.Outcome State Fault Refusal := onBlocks (fun v b => seat v occupancy b) s

/-- VERDICT (R138). -/
def execVerdict (bins : BitVec 32) (s : State) : Host.Outcome State Fault Refusal := onBlocks (fun v b => verdict v bins b) s

/-- INSERTION_TIMEOUT (R139). -/
def execInsertionTimeout (s : State) : Host.Outcome State Fault Refusal := onBlocks insertionTimeout s

end Sys2Proof.Machine
end

