-- ==== Sys2Proof/Machine/ExecRequests.lean ====
section
/-! DEFINITION. The commands of the Cell Line (chapter 11): bytes, the transmitter, and each request as a complete message. -/

namespace Sys2Proof.Machine

/-- CELL_LINE_MESSAGE (R172). -/
def execCellLineMessage (bytes : List Byte) (s : State) : Host.Outcome State Fault Refusal := .next (cellBytes bytes s)

/-- CELL_BYTE_TIMEOUT (R172). -/
def execCellByteTimeout (s : State) : Host.Outcome State Fault Refusal := .next (cellByteTimeout s)

/-- CELL_LINE_TRANSMIT (R174). -/
def execCellLineTransmit (s : State) : Host.Outcome State Fault Refusal := .next (cellTransmit s)

/-- UNKNOWN_REQUEST (R173). -/
def execUnknownRequest (type : Byte) (payload : List Byte) (s : State) : Host.Outcome State Fault Refusal :=
  .next (request (requestOf type payload) s)

/-- CONFIGURE (R176, R173). -/
def execConfigure (f : ConfigFields) (s : State) : Host.Outcome State Fault Refusal :=
  .next (request (.configure f) s)

/-- JOIN (R21, R173). -/
def execJoin (s : State) : Host.Outcome State Fault Refusal := .next (request .join s)

/-- LEAVE (R34, R173). -/
def execLeave (s : State) : Host.Outcome State Fault Refusal := .next (request .leave s)

/-- REJOIN (R35, R173). -/
def execRejoin (s : State) : Host.Outcome State Fault Refusal := .next (request .rejoin s)

/-- RESET (R178, R173). -/
def execReset (s : State) : Host.Outcome State Fault Refusal := .next (request .reset s)

/-- STATUS (R179, R173). -/
def execStatus (s : State) : Host.Outcome State Fault Refusal := .next (request .status s)

/-- READ_LOT (R179, R173). -/
def execReadLot (lot : Nat) (s : State) : Host.Outcome State Fault Refusal := .next (request (.readLot lot) s)

/-- READ_HOLDS (R179, R173). -/
def execReadHolds (s : State) : Host.Outcome State Fault Refusal := .next (request .readHolds s)

/-- READ_KITS (R179, R173). -/
def execReadKits (s : State) : Host.Outcome State Fault Refusal := .next (request .readKits s)

/-- READ_PEERS (R179, R173). -/
def execReadPeers (s : State) : Host.Outcome State Fault Refusal := .next (request .readPeers s)

/-- READ_QUEUE (R179, R173). -/
def execReadQueue (s : State) : Host.Outcome State Fault Refusal := .next (request .readQueue s)

/-- READ_SITES (R179, R173). -/
def execReadSites (s : State) : Host.Outcome State Fault Refusal := .next (request .readSites s)

/-- READ_SLOTS (R179, R173). -/
def execReadSlots (s : State) : Host.Outcome State Fault Refusal := .next (request .readSlots s)

/-- POST_LOT (R78, R173). -/
def execPostLot (f : LotFields) (s : State) : Host.Outcome State Fault Refusal := .next (request (.postLot f) s)

/-- WITHDRAW_LOT (R97, R173). -/
def execWithdrawLot (lot : Nat) (s : State) : Host.Outcome State Fault Refusal := .next (request (.withdrawLot lot) s)

/-- RESUME_LOT (R98, R173). -/
def execResumeLot (lot : Nat) (s : State) : Host.Outcome State Fault Refusal := .next (request (.resumeLot lot) s)

/-- CEDE (R96, R173). -/
def execCede (lot step : Nat) (s : State) : Host.Outcome State Fault Refusal := .next (request (.cede lot step) s)

/-- CLEAR_REFUSALS (R100, R173). -/
def execClearRefusals (s : State) : Host.Outcome State Fault Refusal := .next (request .clearRefusals s)

/-- RELEASE_CONFIRM (R167, R173). -/
def execReleaseConfirm (lot : Nat) (s : State) : Host.Outcome State Fault Refusal :=
  .next (request (.releaseConfirm lot) s)

/-- PLACE_HOLD (R151, R173). -/
def execPlaceHold (scope : Nat) (target : BitVec 32) (level : Nat) (s : State) : Host.Outcome State Fault Refusal :=
  .next (request (.placeHold scope target level) s)

/-- LIFT_HOLD (R156, R173). -/
def execLiftHold (origin serial : Nat) (s : State) : Host.Outcome State Fault Refusal :=
  .next (request (.liftHold origin serial) s)

/-- KIT_ADD (R108, R173). -/
def execKitAdd (kit family limit : Nat) (s : State) : Host.Outcome State Fault Refusal :=
  .next (request (.kitAdd kit family limit) s)

/-- KIT_FOUND (R108, R173). -/
def execKitFound (kit : Nat) (s : State) : Host.Outcome State Fault Refusal := .next (request (.kitFound kit) s)

/-- KIT_SERVICED (R108, R173). -/
def execKitServiced (kit : Nat) (s : State) : Host.Outcome State Fault Refusal := .next (request (.kitServiced kit) s)

/-- KIT_RETIRE (R108, R173). -/
def execKitRetire (kit : Nat) (s : State) : Host.Outcome State Fault Refusal := .next (request (.kitRetire kit) s)

/-- KIT_FITTED (R106, R173). -/
def execKitFitted (kit : Nat) (s : State) : Host.Outcome State Fault Refusal := .next (request (.kitFitted kit) s)

/-- KIT_REMOVED (R107, R173). -/
def execKitRemoved (kit : Nat) (s : State) : Host.Outcome State Fault Refusal := .next (request (.kitRemoved kit) s)

/-- BAND_CHANGE (R111, R173). -/
def execBandChange (band : Nat) (s : State) : Host.Outcome State Fault Refusal := .next (request (.bandChange band) s)

/-- BAND_READY (R112, R173). -/
def execBandReady (band : Nat) (s : State) : Host.Outcome State Fault Refusal := .next (request (.bandReady band) s)

/-- END_STEP (R146, R173). -/
def execEndStep (lot step : Nat) (s : State) : Host.Outcome State Fault Refusal :=
  .next (request (.endStep lot step) s)

/-- SITE_RESTORE (R141, R173). -/
def execSiteRestore (site : Nat) (s : State) : Host.Outcome State Fault Refusal :=
  .next (request (.siteRestore site) s)

end Sys2Proof.Machine
end

