-- ==== Sys2Proof/Machine/Dispatch.lean ====
section
/-! DEFINITION. The meaning of every command: one arm for each row of spec/opcode_table.json. -/

namespace Sys2Proof.Machine

def exec (i : Instr) (s : State) : Host.Outcome State Fault Refusal :=
  match i with
  | .powerOnReset straps => Sys2Proof.Machine.execPowerOnReset straps s
  | .pinReset straps => Sys2Proof.Machine.execPinReset straps s
  | .softReset straps => Sys2Proof.Machine.execSoftReset straps s
  | .transmitStart => Sys2Proof.Machine.execTransmitStart s
  | .arbitrationLost => Sys2Proof.Machine.execArbitrationLost s
  | .transmitFault => Sys2Proof.Machine.execTransmitFault s
  | .frameEnd r => Sys2Proof.Machine.execFrameEnd r s
  | .listenTimerExpiry => Sys2Proof.Machine.execListenTimerExpiry s
  | .beaconTimerExpiry => Sys2Proof.Machine.execBeaconTimerExpiry s
  | .silenceTimerExpiry peer => Sys2Proof.Machine.execSilenceTimerExpiry peer s
  | .parkTimerExpiry => Sys2Proof.Machine.execParkTimerExpiry s
  | .answerTimerExpiry => Sys2Proof.Machine.execAnswerTimerExpiry s
  | .deferTimerExpiry => Sys2Proof.Machine.execDeferTimerExpiry s
  | .snapshotTimerExpiry => Sys2Proof.Machine.execSnapshotTimerExpiry s
  | .retryTimerExpiry => Sys2Proof.Machine.execRetryTimerExpiry s
  | .deferenceTimerExpiry lot step => Sys2Proof.Machine.execDeferenceTimerExpiry lot step s
  | .blockTimeout => Sys2Proof.Machine.execBlockTimeout s
  | .verifyTimeout => Sys2Proof.Machine.execVerifyTimeout s
  | .swapTimeout => Sys2Proof.Machine.execSwapTimeout s
  | .purgeTimeout => Sys2Proof.Machine.execPurgeTimeout s
  | .blockOk slot n => Sys2Proof.Machine.execBlockOk slot n s
  | .blockBad slot n cause => Sys2Proof.Machine.execBlockBad slot n cause s
  | .loadEnd slot => Sys2Proof.Machine.execLoadEnd slot s
  | .verifyResult slot isMatch => Sys2Proof.Machine.execVerifyResult slot isMatch s
  | .swapDone => Sys2Proof.Machine.execSwapDone s
  | .purgeDone slot => Sys2Proof.Machine.execPurgeDone slot s
  | .testerMessageDiscard bytes => Sys2Proof.Machine.execTesterMessageDiscard bytes s
  | .testerByteTimeout => Sys2Proof.Machine.execTesterByteTimeout s
  | .seat occupancy => Sys2Proof.Machine.execSeat occupancy s
  | .verdict bins => Sys2Proof.Machine.execVerdict bins s
  | .insertionTimeout => Sys2Proof.Machine.execInsertionTimeout s
  | .cellLineMessage bytes => Sys2Proof.Machine.execCellLineMessage bytes s
  | .cellByteTimeout => Sys2Proof.Machine.execCellByteTimeout s
  | .cellLineTransmit => Sys2Proof.Machine.execCellLineTransmit s
  | .unknownRequest type payload => Sys2Proof.Machine.execUnknownRequest type payload s
  | .configure f => Sys2Proof.Machine.execConfigure f s
  | .join => Sys2Proof.Machine.execJoin s
  | .leave => Sys2Proof.Machine.execLeave s
  | .rejoin => Sys2Proof.Machine.execRejoin s
  | .reset => Sys2Proof.Machine.execReset s
  | .status => Sys2Proof.Machine.execStatus s
  | .readLot lot => Sys2Proof.Machine.execReadLot lot s
  | .readHolds => Sys2Proof.Machine.execReadHolds s
  | .readKits => Sys2Proof.Machine.execReadKits s
  | .readPeers => Sys2Proof.Machine.execReadPeers s
  | .readQueue => Sys2Proof.Machine.execReadQueue s
  | .readSites => Sys2Proof.Machine.execReadSites s
  | .readSlots => Sys2Proof.Machine.execReadSlots s
  | .postLot f => Sys2Proof.Machine.execPostLot f s
  | .withdrawLot lot => Sys2Proof.Machine.execWithdrawLot lot s
  | .resumeLot lot => Sys2Proof.Machine.execResumeLot lot s
  | .cede lot step => Sys2Proof.Machine.execCede lot step s
  | .clearRefusals => Sys2Proof.Machine.execClearRefusals s
  | .releaseConfirm lot => Sys2Proof.Machine.execReleaseConfirm lot s
  | .placeHold scope target level => Sys2Proof.Machine.execPlaceHold scope target level s
  | .liftHold origin serial => Sys2Proof.Machine.execLiftHold origin serial s
  | .kitAdd kit family limit => Sys2Proof.Machine.execKitAdd kit family limit s
  | .kitFound kit => Sys2Proof.Machine.execKitFound kit s
  | .kitServiced kit => Sys2Proof.Machine.execKitServiced kit s
  | .kitRetire kit => Sys2Proof.Machine.execKitRetire kit s
  | .kitFitted kit => Sys2Proof.Machine.execKitFitted kit s
  | .kitRemoved kit => Sys2Proof.Machine.execKitRemoved kit s
  | .bandChange band => Sys2Proof.Machine.execBandChange band s
  | .bandReady band => Sys2Proof.Machine.execBandReady band s
  | .endStep lot step => Sys2Proof.Machine.execEndStep lot step s
  | .siteRestore site => Sys2Proof.Machine.execSiteRestore site s

end Sys2Proof.Machine
end

