-- ==== Sys2Proof/Safety.lean ====
section
/-! DEFINITION. What the statements are about: what the evaluations leave alone, what it means that a notice has been
reported, when a request or a frame is taken, and the invariants of the part. -/

namespace Sys2Proof.Machine

/-! ### What the evaluations may change -/

/-- The blocks without what the evaluations at the end of a command work on: the Send Queue and the offers, the park
timer, the Dispatch Queue's phases and the deference timers, the kit request, the slots and operation of the Load
Engine, the gate and its lines, and the Notice Queue. -/
def Blocks.core (b : Blocks) : Blocks where
  lc := { b.lc with queue := [], waiting := [] }
  pu := { b.pu with parkTimer := none }
  cu := b.cu
  du := { b.du with queue := [], timers := [], evalDue := false }
  hr := { b.hr with request := none }
  le := { b.le with active := ⟨.unknown, none⟩, staged := ⟨.unknown, none⟩, op := none, sent := [] }
  iw := { b.iw with gate := false, insertion := .idle, go := false, en := 0, halt := false }
  cli := { b.cli with notices := [], noticesLost := false }

/-- The lot and step of a Dispatch Queue entry. -/
def QueueEntry.key (e : QueueEntry) : Nat × Nat := (e.lot, e.step)

/-- The steps of the Dispatch Queue, head first. -/
def Blocks.steps (b : Blocks) : List (Nat × Nat) := b.du.queue.map QueueEntry.key

/-- A notice has been raised: it stands in the Notice Queue, or the queue was full and the notices-lost flag says so
(R175). -/
def Blocks.reported (b : Blocks) (n : Notice) : Prop := n ∈ b.cli.notices ∨ b.cli.noticesLost = true

/-- What the evaluations do at most to the blocks: the core stays, the Dispatch Queue keeps its steps, notices are only
added, an insertion in test stays in test. -/
structure Evolves (b c : Blocks) : Prop where
  core : c.core = b.core
  steps : c.steps = b.steps
  notices : b.cli.notices <+: c.cli.notices
  lost : b.cli.noticesLost = true → c.cli.noticesLost = true
  test : ∀ m n, b.iw.insertion = .inTest m n → c.iw.insertion = .inTest m n

/-! ### Requests -/

/-- A request sent now is taken at once: no request waits, no response waits, no reset is awaited, and the station is
not PARKED (Obligations.RequestWakesTheStation is about PARKED). -/
structure State.TakesAtOnce (s : State) : Prop where
  fifo : s.blocks.cli.fifo = []
  resp : s.blocks.cli.resp = none
  notAwaited : s.blocks.cli.resetAwaited = false
  notParked : s.blocks.station ≠ .parked

/-- The taking of a request restarts a running park timer (R32). -/
def State.taking (s : State) : State :=
  { s with blocks := { s.blocks with
      pu := { s.blocks.pu with parkTimer := s.blocks.pu.parkTimer.map fun _ => s.config.parkTimeout * 10000 } } }

/-- A response placed in the response slot (R173). -/
def State.respond (s : State) (type : Nat) (code : RespCode) (index : Nat) (content : Content) : State :=
  { s with blocks := { s.blocks with cli := { s.blocks.cli with resp := some ⟨type, code, index, content⟩ } } }

/-- A response that reports nothing more than its code. -/
def State.respondCode (s : State) (type : Nat) (code : RespCode) : State := s.respond type code 0 .none

/-- A response BAD_VALUE that names a field (R181). -/
def State.respondBad (s : State) (type index : Nat) : State := s.respond type .badValue index .none

/-- The frame of a host request enqueued with host share (R8). -/
def State.enqueue (s : State) (body : FrameBody) (owner : Owner) : State :=
  { s with blocks := { s.blocks with
      lc := { s.blocks.lc with queue := insertEntry ⟨body, 63, owner, true, 0, false, false⟩ s.blocks.lc.queue } } }

/-- The request that a command of the Cell Line carries whole (Table 11.1). -/
def carried : Instr → Option Request
  | .unknownRequest type payload => some (requestOf type payload)
  | .configure f => some (.configure f)
  | .join => some .join
  | .leave => some .leave
  | .rejoin => some .rejoin
  | .reset => some .reset
  | .status => some .status
  | .readLot lot => some (.readLot lot)
  | .readHolds => some .readHolds
  | .readKits => some .readKits
  | .readPeers => some .readPeers
  | .readQueue => some .readQueue
  | .readSites => some .readSites
  | .readSlots => some .readSlots
  | .postLot f => some (.postLot f)
  | .withdrawLot lot => some (.withdrawLot lot)
  | .resumeLot lot => some (.resumeLot lot)
  | .cede lot step => some (.cede lot step)
  | .clearRefusals => some .clearRefusals
  | .releaseConfirm lot => some (.releaseConfirm lot)
  | .placeHold scope target level => some (.placeHold scope target level)
  | .liftHold origin serial => some (.liftHold origin serial)
  | .kitAdd kit family limit => some (.kitAdd kit family limit)
  | .kitFound kit => some (.kitFound kit)
  | .kitServiced kit => some (.kitServiced kit)
  | .kitRetire kit => some (.kitRetire kit)
  | .kitFitted kit => some (.kitFitted kit)
  | .kitRemoved kit => some (.kitRemoved kit)
  | .bandChange band => some (.bandChange band)
  | .bandReady band => some (.bandReady band)
  | .endStep lot step => some (.endStep lot step)
  | .siteRestore site => some (.siteRestore site)
  | _ => none

/-- A command of the Cell Line: a request, its bytes, or the transmitter, which lets a waiting request be taken. -/
def ofCellLine (c : Instr) : Bool :=
  (carried c).isSome || match c with
    | .cellLineMessage _ => true
    | .cellByteTimeout => true
    | .cellLineTransmit => true
    | _ => false

/-- A command that resets the part. -/
def isReset : Instr → Bool
  | .powerOnReset _ => true
  | .pinReset _ => true
  | .softReset _ => true
  | _ => false

/-- The commands of the tester's loading messages and the four operation timers (chapter 7). -/
def ofLoading : Instr → Bool
  | .blockOk .. => true
  | .blockBad .. => true
  | .loadEnd _ => true
  | .verifyResult .. => true
  | .swapDone => true
  | .purgeDone _ => true
  | .blockTimeout => true
  | .verifyTimeout => true
  | .swapTimeout => true
  | .purgeTimeout => true
  | _ => false

/-- The commands of the handler and of the verdicts (chapter 8). -/
def ofInsertion : Instr → Bool
  | .seat _ => true
  | .verdict _ => true
  | .insertionTimeout => true
  | _ => false

/-! ### Frames -/

/-- A good frame of another transmitter ends and is handed on (R1, R5, R7): its content, while no own frame is in
transmission, the medium has been idle since the last reset or own fault, and the station is not OFFLINE. -/
structure State.HearsPeer (s : State) (f : RxFrame) (body : FrameBody) : Prop where
  good : judgeFrame f = some body
  receiving : s.blocks.lc.tx = none
  idleBefore : s.blocks.lc.medium.hears = true
  online : s.blocks.station ≠ .offline

/-- The end of a frame by which a state frame is heard and applied at once (R7, R37, R72): how the reception ended, the
sender, the authority the sender is judged by (R54), and the content. -/
inductive State.Hearing (s : State) : Reception → Nat → Level → FrameBody → Prop
  /-- the own frame in transmission -/
  | own (x : TxFrame) (sent : s.blocks.lc.tx = some x) (online : s.blocks.station ≠ .offline)
      (isState : x.body.isState = true) (notBuffering : s.blocks.cu.phase ≠ .receiving) :
      State.Hearing s .own s.stationId s.config.authority x.body
  /-- a frame of another transmitter -/
  | peer (r : Reception) (f : RxFrame) (body : FrameBody) (receiving : s.blocks.lc.tx = none)
      (reads : received s.blocks.lc.medium r = some (some f)) (good : judgeFrame f = some body)
      (online : s.blocks.station ≠ .offline) (isState : body.isState = true)
      (notBuffering : s.blocks.cu.phase ≠ .receiving) :
      State.Hearing s r f.sender.toNat (s.blocks.pu.authorityOf f.sender.toNat) body

/-! ### What a statement says of the next state -/

/-- A notice raised in a state (R175). -/
def State.raised (s : State) (n : Notice) : State := { s with blocks := raise n s.blocks }

/-- A slot record put in the Load Engine's records. -/
def LoadEngine.put (l : LoadEngine) (x : Slot) (r : SlotRec) : LoadEngine :=
  match x with
  | .active => { l with active := r }
  | .staged => { l with staged := r }

/-- The Load Engine's records replaced; `signalled`: a change of a slot's state or program, an event of R83 (R113). -/
def Blocks.withLe (b : Blocks) (l : LoadEngine) (signalled : Bool) : Blocks :=
  { b with le := l, du := { b.du with evalDue := signalled || b.du.evalDue } }

/-- The Load Engine's records replaced in the blocks of a state. -/
def State.withLe (s : State) (l : LoadEngine) (signalled : Bool) : State :=
  { s with blocks := s.blocks.withLe l signalled }

/-- The Insertion Watch's records replaced. -/
def State.withIw (s : State) (w : InsertionWatch) : State := { s with blocks := { s.blocks with iw := w } }

/-- The Link Controller's records replaced. -/
def State.withLc (s : State) (lc : LinkController) : State := { s with blocks := { s.blocks with lc := lc } }

/-- The Cell Line Interface's records replaced. -/
def State.withCli (s : State) (c : CellLineInterface) : State := { s with blocks := { s.blocks with cli := c } }

/-- A site record replaced. -/
def State.withSite (s : State) (n : Nat) (r : SiteRec) : State :=
  s.withIw { s.blocks.iw with sites := s.blocks.iw.sites.set (n - 1) r }

/-- The Handler Record replaced by a change that is signalled (R102). -/
def State.withHr (s : State) (h : HandlerRecord) : State :=
  { s with blocks := { s.blocks with hr := h, du := { s.blocks.du with evalDue := true } } }

/-- An entry of a block's own frame, with internal share (R8). -/
def internal (body : FrameBody) (owner : Owner) : SendEntry := ⟨body, 63, owner, false, 0, false, false⟩

/-- A frame of a block offered, to every station, with internal share, by a station that accepts frames (R8 to R10). -/
def State.offered (s : State) (body : FrameBody) (target : Nat) (owner : Owner) : State :=
  s.withLc (offerLc ⟨body, target, owner, false, 0, false, false⟩ s.blocks.lc)

/-- A kit joins the give list, if it is not on it, with a KIT GIVE where none stands and frames are accepted (R107). -/
def State.withGive (s : State) (k : Nat) : State :=
  if s.blocks.hr.gives.contains k then s
  else { s with blocks := { s.blocks with
    hr := { s.blocks.hr with gives := s.blocks.hr.gives ++ [k] }
    lc := if acceptsFrames s.blocks.station = true ∧ s.blocks.lc.standing (· == .kitGive k) = false then
        offerLc (internal (.kitGive k) .hr) s.blocks.lc
      else s.blocks.lc } }

/-- The fitted-kit record set to a kit: the kit leaves the give list, its queued KIT GIVE is withdrawn, and the trip
counter is cleared (R106). -/
def State.withFitted (s : State) (k : Nat) : State :=
  ((s.withHr { s.blocks.hr with fitted := some k, gives := s.blocks.hr.gives.filter fun g => g != k }).withLc
    (withdrawLc (· == .kitGive k) s.blocks.lc)).withIw { s.blocks.iw with trip := 0 }

/-- The kit request set, with no evaluation called for. -/
def State.withRequest (s : State) (r : Option KitRequest) : State :=
  { s with blocks := { s.blocks with hr := { s.blocks.hr with request := r } } }

/-- A lot as the hold history test of a replica leaves it (R42). -/
def LotRec.tested (l : LotRec) (r : Replica) : LotRec := { l with holdHistory := l.holdHistory || r.coveredLot l }

/-- A lot with its step `k` in another state, the step's fixed fields kept. -/
def LotRec.withStep (l : LotRec) (k : Nat) (st : StepState) : LotRec :=
  { l with plan := l.plan.mapIdx fun i x => if i + 1 = k then ⟨x.spec, st⟩ else x }

/-- A replica with one step of one lot in another state; every other field is as before, but for the hold history that
the test of R42 then sets. -/
def Replica.withStep (r : Replica) (lot k : Nat) (st : StepState) : Replica :=
  { r with lots := r.lots.map fun l => (if l.lot = lot then l.withStep k st else l).tested r }

/-- A replica in which the record of one kit has become another or gone; the other kits, the Hold List and the ring are
as before, and the lots but for the hold history test (R42). -/
structure Replica.KitBecomes (r r' : Replica) (k : Nat) (new : Option KitRec) : Prop where
  kit : r'.kit? k = new
  others : ∀ n, n ≠ k → r'.kit? n = r.kit? n
  lots : r'.lots = r.lots.map fun l => l.tested r
  holds : r'.holds = r.holds
  ring : r'.ring = r.ring

/-! ### The invariant of the replica (R36, R38) -/

/-- IDs strictly rising. -/
def rising : List Nat → Bool
  | [] => true
  | [_] => true
  | a :: b :: xs => a < b && rising (b :: xs)

/-- No scope and target twice. -/
def targetsDistinct : List HoldEntry → Bool
  | [] => true
  | h :: hs => !(hs.any fun x => x.target == h.target) && targetsDistinct hs

/-- The tables of a replica within their capacities, no lot ID, kit ID or hold target twice (R36, R40, R43, R44). -/
def Replica.sound (r : Replica) : Bool :=
  r.lots.length ≤ Config.maxLots && rising (r.lots.map LotRec.lot)
    && r.holds.length ≤ Config.maxHolds && targetsDistinct r.holds
    && r.kits.length ≤ Config.maxKits && rising (r.kits.map KitRec.kit)
    && r.ring.length ≤ Config.maxShipped

/-- The snapshot under reception, if there is one, is sound. -/
def copySound (c : SnapshotCopy) : Bool :=
  match c with
  | .receiving a => a.rep.sound
  | _ => true

/-- The replica is sound, the digest is the replica's, and a snapshot under reception is sound. -/
def State.replicaInv (s : State) : Prop :=
  s.re.replica.sound = true ∧ s.re.digest = s.re.replica.digest ∧ copySound s.blocks.cu.copy = true

/-! ### The invariant of the gate (R132, R136) -/

/-- The gate is open exactly while its conditions hold, GO is asserted only over an insertion in test with the gate
open, with the enable lines of the enabled set, and no enable line is asserted without GO. -/
def State.gateInv (s : State) : Prop :=
  s.blocks.iw.gate = gateConditions s.view s.blocks
    ∧ (s.blocks.iw.go = true → s.blocks.iw.gate = true ∧ ∃ n, s.blocks.iw.insertion = .inTest s.blocks.iw.en n)
    ∧ (s.blocks.iw.go = false → s.blocks.iw.en = 0)

/-! ### The invariant of the stores (R6, R8, R72, R99, R173 to R175) -/

/-- The Send Queue and its host share, the junk count, the Catch-up Buffer, the Refusal List, the Request FIFO, the
Discard List with the discards-unreported count, and the Notice Queue within their bounds; no offer that waits has the
host share mark. -/
def State.storesInv (s : State) : Prop :=
  s.blocks.lc.queue.length ≤ Config.maxSend ∧ s.blocks.lc.hostShare ≤ Config.maxHostShare
    ∧ (∀ e ∈ s.blocks.lc.waiting, e.host = false) ∧ s.blocks.lc.junk ≤ 65535
    ∧ s.blocks.cu.buffer.length ≤ Config.maxBuffer
    ∧ s.blocks.du.refusals.length ≤ Config.maxRefusals
    ∧ s.blocks.cli.fifo.length ≤ Config.maxFifo
    ∧ s.blocks.cli.discards.length ≤ Config.maxDiscards ∧ s.blocks.cli.unreported ≤ 65535
    ∧ s.blocks.cli.notices.length ≤ Config.maxNotices

/-! ### The invariant of the Dispatch Queue (R61, R87, R88) -/

/-- No two entries of the Dispatch Queue name the same lot and step, and those of a member of the floor are this station's;
with what keeps it so: no own BID under way names a step of the queue or meets a snapshot under reception, and an attempt
to catch up, with its timers, runs in JOINING alone, outside the listen wait. -/
structure State.queueInv (s : State) : Prop where
  /-- R87 -/
  distinct : s.blocks.steps.Nodup
  /-- R88 -/
  own : isMember s.blocks.station = true → ∀ e ∈ s.blocks.du.queue, stillMine s.view e = true
  /-- R85: a BID starts for a WAITING step, of a member -/
  bid : ∀ x lot k, s.blocks.lc.tx = some x → x.body = .bid lot k →
    (lot, k) ∉ s.blocks.steps ∧ s.blocks.cu.phase ≠ .receiving
  /-- R72: no own BID is heard while a snapshot is received -/
  buffered : ∀ f ∈ s.blocks.cu.buffer, f.own = true → f.body.isBid = false
  /-- R61, R62, R76 -/
  joining : s.blocks.station ≠ .joining → s.blocks.cu.phase = .none
  /-- R21, R23 -/
  listening : s.blocks.pu.listenTimer.isSome = true → isWorking s.blocks.station = false ∧ s.blocks.cu.phase = .none
  /-- R63, R64 -/
  answer : s.blocks.cu.answerTimer.isSome = true → s.blocks.cu.phase = .requesting
  /-- R65 -/
  defer : s.blocks.cu.deferTimer.isSome = true → s.blocks.cu.phase = .deferred
  /-- R71 -/
  snapshot : s.blocks.cu.snapshotTimer.isSome = true → s.blocks.cu.phase = .receiving
  /-- R75 -/
  retry : s.blocks.cu.retryTimer.isSome = true → s.blocks.cu.phase = .retryWait

/-! ### Well-formed contents (12.1) -/

/-- The fields of a step record within their widths; image blocks 1 to 256. -/
def StepSpec.wf (s : StepSpec) : Bool :=
  s.program < 65536 && s.revision < 256 && 1 ≤ s.blocks && s.blocks ≤ 256 && s.family < 256

/-- A hold target within its widths. -/
def HoldTarget.wf : HoldTarget → Bool
  | .lot id => id < 4294967296
  | .device t => t < 65536
  | .program p r => p < 65536 && r < 256
  | .kit k => k < 256
  | .station s => s < 256

/-- The fields of a step state within their widths (Table 12.4). -/
def StepState.wf : StepState → Bool
  | .pending => true
  | .waiting e => e < 65536
  | .claimed s e => s < 256 && e < 65536
  | .running s k e => s < 256 && k < 256 && e < 65536
  | .tallied s k e p f l i =>
    s < 256 && k < 256 && e < 65536 && p < 65536 && f < 65536 && l < 65536 && i < 65536

/-- A station or kit field that is 0 when absent. -/
def optWf (o : Option Nat) : Bool :=
  match o with
  | some n => 1 ≤ n && n < 256
  | none => true

/-- The station of a kit location. -/
def KitLocation.wf : KitLocation → Bool
  | .shelf => true
  | .at s => s < 256
  | .stranded s => s < 256

/-- The record of a SNAP ENTRY within its widths, plans of 1 to 6 steps, at most 16 ring IDs (Table 12.4). -/
def SnapRecord.wf : SnapRecord → Bool
  | .lot h =>
    h.lot < 4294967296 && h.device < 65536 && h.posted < 65536 && h.lostAllowance < 256 && h.origin < 256
      && optWf h.releaseOwner && 1 ≤ h.specs.length && h.specs.length ≤ 6 && h.specs.all StepSpec.wf
  | .plan ss => 1 ≤ ss.length && ss.length ≤ 6 && ss.all StepState.wf
  | .hold h => h.origin < 256 && h.target.wf
  | .kit k => k.kit < 256 && k.family < 256 && k.location.wf && k.count < 16777216 && k.limit < 16777216
  | .ring ids => ids.length ≤ 16 && ids.all fun i => i < 4294967296

/-- The content of a frame a station can send, its fields within their widths, a POST with 1 to 6 steps
(Table 12.3). -/
def FrameBody.wf : FrameBody → Bool
  | .hold _ t _ _ => t.wf
  | .lift o _ => o < 256
  | .ship l q => l < 4294967296 && q < 65536
  | .stepStart l k kit => l < 4294967296 && k < 256 && kit < 256
  | .stepTally l k kit e p f lo i =>
    l < 4294967296 && k < 256 && kit < 256 && e < 65536 && p < 65536 && f < 65536 && lo < 65536 && i < 65536
  | .orphan s => s < 256
  | .cede l k => l < 4294967296 && k < 256
  | .bid l k => l < 4294967296 && k < 256
  | .resume l => l < 4294967296
  | .withdraw l => l < 4294967296
  | .post p =>
    p.lot < 4294967296 && p.device < 65536 && p.posted < 65536 && p.lostAllowance < 256 && 1 ≤ p.specs.length
      && p.specs.length ≤ 6 && p.specs.all StepSpec.wf
  | .kitAdd k f l => k < 256 && f < 256 && l < 16777216
  | .kitTake k => k < 256
  | .kitGive k => k < 256
  | .kitFound k => k < 256
  | .kitServiced k => k < 256
  | .kitRetire k => k < 256
  | .catchReq => true
  | .catchDefer => true
  | .snapBegin _ _ l h k => l < 256 && h < 256 && k < 256
  | .snapEnd _ _ n => n < 256
  | .beacon b =>
    5 ≤ b.interval && b.interval ≤ 100 && b.depth < 256 && optWf b.fitted
  | .snapEntry i r => i < 256 && r.wf
  -- no station sends these (R180)
  | .unnamedState _ => false
  | .unnamedEntry _ => false
  | .unnamedBeacon => false

end Sys2Proof.Machine
end

