-- ==== Sys2Proof/Certificates/Slice0/Obligations.lean ====
section
/-! DEFINITION. The statements of this row. `State.finish` is the end of a command: the evaluations of the blocks
(R39, R83, R91, R95, R105, R116, R132), a LEAVE sequence that has come to be complete (R34) and the park timer (R32);
Obligations.EvaluationsFrame and Obligations.EveryStepKeepsTheGate say what it leaves alone and what it establishes. -/

open Sys2Proof Sys2Proof.Machine

/-! ### The step -/

/-- The command at the front of the queue is executed on the queue's rest. -/
def Obligations.StepRunsTheFrontCommand : Prop :=
  ∀ (c : Instr) (rest : List Instr) (s : State),
    s.pending = c :: rest → step s = exec c { s with pending := rest }

/-- On an empty queue one millisecond passes (the model's choice, log 2): every running timer counts, down to 0, where
it stays until its expiry is taken, a silence timer up, to 65535 (log 23); nothing else changes. -/
def Obligations.EmptyQueueLetsTimePass : Prop :=
  ∀ s : State, s.pending = [] → step s = .next { s with blocks := { s.blocks with
    pu := { s.blocks.pu with
      peers := s.blocks.pu.peers.map fun p => { p with silence := p.silence.map fun n => min 65535 (n + 1) }
      beaconTimer := s.blocks.pu.beaconTimer.map (· - 1)
      listenTimer := s.blocks.pu.listenTimer.map (· - 1)
      parkTimer := s.blocks.pu.parkTimer.map (· - 1) }
    cu := { s.blocks.cu with
      answerTimer := s.blocks.cu.answerTimer.map (· - 1)
      snapshotTimer := s.blocks.cu.snapshotTimer.map (· - 1)
      deferTimer := s.blocks.cu.deferTimer.map (· - 1)
      retryTimer := s.blocks.cu.retryTimer.map (· - 1) }
    du := { s.blocks.du with timers := s.blocks.du.timers.map fun t => { t with remaining := t.remaining - 1 } }
    le := { s.blocks.le with op := s.blocks.le.op.map fun o => { o with timer := o.timer - 1 } }
    iw := { s.blocks.iw with
      insertion := match s.blocks.iw.insertion with
        | .inTest m n => .inTest m (n - 1)
        | i => i } } }

/-- Every command is answered with a next state, whatever the state, and the commands that wait stay. One whose
precondition does not hold is answered too by the model's choice (log 1). -/
def Obligations.EveryCommandIsAnswered : Prop :=
  ∀ (c : Instr) (s : State), ∃ t, exec c s = .next t ∧ t.pending = s.pending

/-! ### Resets -/

/-- POWER_ON_RESET (R177 and every block's own rule; the partial tester message and the records of the two output
ports are empty by log 22): what the part holds right after it. PIN_RESET, and a SOFT_RESET that is awaited and whose
response has gone: what they keep and what they leave (R6, R130, R174, R177, R178); a SOFT_RESET that nothing awaits
changes nothing (log 21). -/
def Obligations.ResetsLeave : Prop :=
  (∀ (straps : BitVec 6) (s : State), exec (.powerOnReset straps) s = .next
     { pending := s.pending
       stationId := straps.toNat
       config := ⟨.operator, 2, 4, 4, 200, 5, 30, true, 500, 4, 6, 32, 8, 0, 10, 10, false⟩
       re := ⟨⟨[], [], [], []⟩, 0, 0xD202EF8D⟩
       blocks :=
         { lc := ⟨[], [], .notIdle 0, none, 0⟩
           pu := ⟨.offline, [], none, none, none, false, false⟩
           cu := ⟨.none, 0, none, 0, 0, [], .empty, none, none, none, none, none⟩
           du := ⟨[], [], [], false, [], [], [], false⟩
           hr := ⟨none, .ambient, false, none, []⟩
           le := ⟨⟨.unknown, none⟩, ⟨.unknown, none⟩, none, [], []⟩
           iw := ⟨false, .idle, List.replicate 8 ⟨.enabled, 0, 0⟩, ⟨none, 0, 0, 0, 0, 0, 0, 0, false, 0, 0⟩, [], 0,
                  false, 0, true, none, []⟩
           cli := ⟨[], [], none, none, [], 0, [.reset .power], false, .power, 0, false⟩ } }) ∧
  (∀ (straps : BitVec 6) (s : State),
     (∃ t, exec (.pinReset straps) s = .next t ∧
       t.pending = s.pending ∧ t.stationId = straps.toNat ∧ t.config = .default ∧ t.re = .reset ∧
       t.blocks = .reset .pin 0 0 (s.blocks.iw.sites.map fun r =>
         ⟨if 3 ≤ r.masks then .retired else .enabled, 0, r.masks⟩)) ∧
     (s.blocks.cli.resetAwaited = true → s.blocks.cli.resp = none → ∃ t, exec (.softReset straps) s = .next t ∧
       t.pending = s.pending ∧ t.stationId = straps.toNat ∧
       t.config = (if s.config.keepOnSoftReset then s.config else .default) ∧ t.re = .reset ∧
       t.blocks = .reset .soft s.blocks.lc.junk s.blocks.cli.unreported (s.blocks.iw.sites.map fun r =>
         ⟨if 3 ≤ r.masks then .retired else .enabled, 0, r.masks⟩)) ∧
     (s.blocks.cli.resetAwaited = false → exec (.softReset straps) s = .next s))

/-- The state after reset satisfies the four invariants. -/
def Obligations.ResetSatisfiesTheInvariants : Prop :=
  State.reset.replicaInv ∧ State.reset.gateInv ∧ State.reset.storesInv ∧ State.reset.queueInv

/-! ### Invariants that every step keeps -/

/-- Tables within their capacities, no lot ID, kit ID or hold target twice, and the digest that of the replica (R36,
R38). -/
def Obligations.EveryStepKeepsTheReplicaSound : Prop :=
  ∀ s t : State, s.replicaInv → step s = .next t → t.replicaInv

/-- The gate is open exactly while its conditions hold, and GO and the enable lines stand only over an insertion in
test with the gate open (R132, R133, R136). -/
def Obligations.EveryStepKeepsTheGate : Prop :=
  ∀ s t : State, s.gateInv → step s = .next t → t.gateInv

/-- The Send Queue and its host share, the junk count, the Catch-up Buffer, the Refusal List, the Request FIFO, the
Discard List, the discards-unreported count and the Notice Queue keep their bounds (R6, R8, R72, R99, R173 to R175). -/
def Obligations.EveryStepKeepsTheStoresBounded : Prop :=
  ∀ s t : State, s.storesInv → step s = .next t → t.storesInv

/-- No two entries of the Dispatch Queue name the same lot and step, and every entry of an ACTIVE or PARKED station names a
step that the replica shows CLAIMED by or RUNNING at it (R87, R88); no own BID in transmission names a step of the queue,
and none waits in the Catch-up Buffer (R72, R85); an attempt to catch up runs in JOINING alone, each of its timers in its
phase alone, and the listen timer with no attempt (R23, R61 to R65, R71, R75, R76). Model's choice in this: that RETRY
WAIT ends at entry to FAULTED like an attempt in progress (log 60). -/
def Obligations.EveryStepKeepsTheDispatchQueue : Prop :=
  ∀ s t : State, s.queueInv → step s = .next t → t.queueInv

/-! ### Frames of whole families -/

/-- No command but a reset changes the station ID; none but a reset and FRAME_END changes the floor count, the digest
or the floor state; none but a reset and a command of the Cell Line changes the configuration (R20, R37, R38, R176). -/
def Obligations.OnlyHeardFramesChangeTheFloor : Prop :=
  ∀ (c : Instr) (s t : State), isReset c = false → exec c s = .next t →
    t.stationId = s.stationId ∧
    (ofCellLine c = false → t.config = s.config) ∧
    ((∀ r, c ≠ .frameEnd r) →
      t.re.count = s.re.count ∧ t.re.digest = s.re.digest ∧ t.re.replica.canonical = s.re.replica.canonical ∧
      (ofCellLine c = false → t.re = s.re))

/-- What the end of a command leaves alone while no LEAVE sequence is in progress: ID, configuration, replica, the
core of the blocks, the steps of the Dispatch Queue, the notices raised so far, an insertion in test. -/
def Obligations.EvaluationsFrame : Prop :=
  ∀ s : State, s.blocks.du.leaving = false →
    s.finish.pending = s.pending ∧ s.finish.stationId = s.stationId ∧ s.finish.config = s.config ∧
    s.finish.re = s.re ∧ Evolves s.blocks s.finish.blocks

/-- The loading messages and the operation timers leave everything but the Load Engine's records, the Refusal List,
the notices and what the evaluations work on. SEAT, VERDICT and INSERTION_TIMEOUT leave the replica, the LC's counts,
the peers, the catch-up, the Handler Record and the slots' rest alone; of the Dispatch Unit they take only the CLAIM
LOST notices that waited, of the Cell Line Interface only the hold serial. -/
def Obligations.LoadingAndInsertionFrames : Prop :=
  (∀ (c : Instr) (s t : State), ofLoading c = true → s.blocks.du.leaving = false → exec c s = .next t →
     t.pending = s.pending ∧ t.stationId = s.stationId ∧ t.config = s.config ∧ t.re = s.re ∧
     t.blocks.steps = s.blocks.steps ∧
     t.blocks.core =
       { s.blocks.core with du := { s.blocks.core.du with refusals := t.blocks.du.refusals } }) ∧
  (∀ (c : Instr) (s t : State), ofInsertion c = true → s.blocks.du.leaving = false → exec c s = .next t →
     t.pending = s.pending ∧ t.stationId = s.stationId ∧ t.config = s.config ∧ t.re = s.re ∧
     t.blocks.steps = s.blocks.steps ∧
     t.blocks.core.lc = s.blocks.core.lc ∧ t.blocks.core.pu = s.blocks.core.pu ∧ t.blocks.cu = s.blocks.cu ∧
     t.blocks.core.hr = s.blocks.core.hr ∧ t.blocks.core.le = s.blocks.core.le ∧
     t.blocks.core.du = { s.blocks.core.du with lostAfterTest := t.blocks.du.lostAfterTest } ∧
     t.blocks.core.cli = { s.blocks.core.cli with serial := t.blocks.cli.serial })

/-! ### The Floor Link: transmitting -/

/-- TRANSMIT_START: the first entry the station state allows, found valid, starts with its content latched; a SNAP BEGIN
copies the replica (R12, R13, R67). A BEACON's content is the station's as of its transmit start (R12, R27).
TRANSMIT_START takes out a lone queued BID whose step is WAITING no longer, and starts nothing (R12, R85). That the
command finds the medium idle whatever came before it (log 1), and that a BEACON shows serving while the copy of a lost
SNAP BEGIN is kept (log 8), is the model's reading. -/
def Obligations.TransmitStartSendsOrRemoves : Prop :=
  (∀ (s : State) (e : SendEntry),
     s.blocks.lc.tx = none →
     s.blocks.lc.queue.find? (fun x => kindAllowed s.blocks.station x.body.kind) = some e →
     valid s.view s.blocks e = true →
     exec .transmitStart s = .next (State.finish { s with blocks := { s.blocks with
       cu := if isSnapBegin e.body then
           { s.blocks.cu with
             copy := .serving s.re.replica
             session := s.blocks.cu.session.map fun x =>
               { x with phase := .sending, count := s.re.count, digest := s.re.digest, next := 0 } }
         else s.blocks.cu
       lc := { s.blocks.lc with
         queue := markFirst (fun x => kindAllowed s.blocks.station x.body.kind) s.blocks.lc.queue
         tx := some ⟨contentNow s.view s.blocks e.body, e.target⟩
         medium := .sending } } })) ∧
  (∀ (s : State) (e : SendEntry) (old : Beacon),
     s.blocks.lc.tx = none → e.body = .beacon old →
     s.blocks.lc.queue.find? (fun x => kindAllowed s.blocks.station x.body.kind) = some e →
     ∃ t, exec .transmitStart s = .next t ∧
       (s.blocks.du.leaving = false → t.blocks.lc.tx = some ⟨.beacon
         { state := s.blocks.station
           authority := s.config.authority
           interval := s.config.beaconInterval / 10
           count := s.re.count
           digest := s.re.digest
           depth := s.blocks.du.queue.length
           fitted := s.blocks.hr.fitted
           band := s.blocks.hr.band
           serving := match s.blocks.cu.copy with
             | .serving _ => true
             | _ => false }, e.target⟩)) ∧
  (∀ (s : State) (e : SendEntry) (lot k : Nat),
     s.blocks.lc.tx = none → s.blocks.lc.queue = [e] → s.blocks.lc.waiting = [] → e.body = .bid lot k →
     isMember s.blocks.station = true →
     (∀ x, s.re.replica.step? lot k = some x → x.state.isWaiting = false) →
     exec .transmitStart s = .next (State.finish { s with blocks := { s.blocks with
       lc := { s.blocks.lc with queue := [], medium := .idle }
       du := { s.blocks.du with evalDue := true } } }))

/-- ARBITRATION_LOST, and a TRANSMIT_FAULT that leaves the fault count below 3: the entry keeps its place and waits for
the next idle, with one fault more after a fault; the loser receives the winner's frame, the faulted station waits for
idle; a SNAP BEGIN's session is OPEN again, the model's choice of log 8 (R1, R14, R16). The third transmit fault of an
entry takes the station to FAULTED with an empty Send Queue and a LINK FAULT that names the dropped frame (R17, R35).
That a catch-up ends with phase NONE there in RETRY WAIT too is the model's choice (log 60). -/
def Obligations.StoppedTransmissionsAreHandled : Prop :=
  (∀ (s : State) (x : TxFrame), s.blocks.lc.tx = some x → (∀ e ∈ s.blocks.lc.queue, e.removal = false) →
     (exec .arbitrationLost s = .next (State.finish { s with blocks := { s.blocks with
       cu := if isSnapBegin x.body then
           { s.blocks.cu with session := s.blocks.cu.session.map fun y => { y with phase := .open } }
         else s.blocks.cu
       lc := { s.blocks.lc with
         queue := s.blocks.lc.queue.map fun e => if e.inTx then { e with inTx := false } else e
         tx := none
         medium := .receiving } } })) ∧
     (∀ e, s.blocks.lc.queue.find? (fun y => y.inTx) = some e → e.faults < 2 →
       exec .transmitFault s = .next (State.finish { s with blocks := { s.blocks with
         cu := if isSnapBegin x.body then
             { s.blocks.cu with session := s.blocks.cu.session.map fun y => { y with phase := .open } }
           else s.blocks.cu
         lc := { s.blocks.lc with
           queue := s.blocks.lc.queue.map fun e => if e.inTx then { e with faults := e.faults + 1, inTx := false } else e
           tx := none
           medium := .notIdle 0 } } }))) ∧
  (∀ (s : State) (x : TxFrame) (e : SendEntry),
     s.blocks.lc.tx = some x → s.blocks.lc.queue.find? (fun y => y.inTx) = some e → 2 ≤ e.faults →
     ∃ t, exec .transmitFault s = .next t ∧ t.blocks.station = .faulted ∧
       t.blocks.lc.queue = [] ∧ t.blocks.lc.waiting = [] ∧ t.blocks.lc.tx = none ∧
       t.blocks.pu.beaconTimer = none ∧ t.blocks.pu.listenTimer = none ∧ t.blocks.pu.parkTimer = none ∧
       t.blocks.du.leaving = false ∧ t.blocks.cu.phase = .none ∧
       t.blocks.reported (.linkFault e.body.kind e.body.subkind))

/-- Each entry that leaves the Send Queue is granted: a waiting offer of the lowest kind code, among equals the longest
waiting, joins behind the entries of a code no higher (R8, R9). An own BEACON that has been sent leaves so (R15); that
the grant of a waiting BID is no event of R83, so that no evaluation follows it, is the model's choice (log 49). -/
def Obligations.FreedEntriesAreGranted : Prop :=
  (∀ (lc : LinkController) (p : SendEntry → Bool), lc.queue.length ≤ 8 →
     (lc.waiting = [] → lc.release p = { lc with queue := lc.queue.filter fun x => !p x }) ∧
     (∀ e pre post, lc.queue.countP p = 1 → lc.waiting = pre ++ e :: post →
       (∀ x ∈ pre, e.body.kind < x.body.kind) → (∀ x ∈ post, e.body.kind ≤ x.body.kind) →
       lc.release p =
         { lc with queue := insertEntry e (lc.queue.filter fun x => !p x), waiting := pre ++ post }) ∧
     (lc.release p).queue.length = lc.queue.length - lc.queue.countP p + min (lc.queue.countP p) lc.waiting.length ∧
     (lc.release p).waiting.length = lc.waiting.length - lc.queue.countP p) ∧
  (∀ (e : SendEntry) (a b : List SendEntry), (∀ x ∈ a, x.body.kind ≤ e.body.kind) →
     (∀ x ∈ b, e.body.kind < x.body.kind) → insertEntry e (a ++ b) = a ++ e :: b) ∧
  (∀ (s : State) (x : TxFrame) (c : Beacon), s.blocks.lc.tx = some x → x.body = .beacon c →
     exec (.frameEnd .own) s = .next (State.finish (s.withLc
       { s.blocks.lc.release (fun e => e.inTx) with tx := none, medium := .ended 0 })))

/-! ### The Floor Link: hearing -/

/-- A frame that is cut off, or that the LC judges junk, is counted and delivered to no block; the count holds at
65535 (R5, R6). While OFFLINE a good frame is handed to no block (R7). The end of a frame that the receiver has not
read from its start-of-frame bit, on a medium not idle since a reset or an own fault, is counted nowhere, and only its
levels count toward idle (R1, R6, R18; the model's reading of a FRAME_END there, log 1). Levels act as the frame they
spell (R1, R2); seven equal ones from the start-of-frame bit on are a cut-off frame (R1, R5). The recessive levels a cut
frame ended with count toward the 11 that make the medium idle, and none of a whole frame's do (R1), nor of a frame cut
without its levels, by the model's choice (log 1). -/
def Obligations.FrameEndsAreJudged : Prop :=
  (∀ (s : State) (r : Reception), s.blocks.lc.tx = none →
     (received s.blocks.lc.medium r = some none ∨
       ∃ f, received s.blocks.lc.medium r = some (some f) ∧ judgeFrame f = none) →
     ∃ n, exec (.frameEnd r) s = .next (State.finish (s.withLc
         { s.blocks.lc with medium := .ended n, junk := min 65535 (s.blocks.lc.junk + 1) })) ∧
       (∀ k bits, received s.blocks.lc.medium r = some none →
         r = .levels (bits ++ false :: List.replicate k true) → n = k) ∧
       (r = .cut ∨ received s.blocks.lc.medium r ≠ some none → n = 0)) ∧
  (∀ (s : State) (r : Reception) (f : RxFrame) (body : FrameBody), s.blocks.lc.tx = none →
     s.blocks.station = .offline → received s.blocks.lc.medium r = some (some f) → judgeFrame f = some body →
     exec (.frameEnd r) s = .next (State.finish (s.withLc { s.blocks.lc with medium := .ended 0 }))) ∧
  (∀ (s : State) (n : Nat), s.blocks.lc.tx = none → s.blocks.lc.medium = .notIdle n → n < 11 →
     exec (.frameEnd .cut) s = .next (s.withLc { s.blocks.lc with medium := .notIdle 0 }) ∧
     (∀ f, exec (.frameEnd (.whole f)) s = .next (s.withLc { s.blocks.lc with medium := .notIdle 0 })) ∧
     (∀ f bits k, wireLevels f = bits ++ false :: List.replicate k true →
       exec (.frameEnd (.levels (wireLevels f))) s
         = .next (s.withLc { s.blocks.lc with medium := .notIdle k }))) ∧
  (∀ (s : State) (bits : List Bool) (f : RxFrame), s.blocks.lc.tx = none →
     receiveLevels s.blocks.lc.medium bits = some (some f) →
     exec (.frameEnd (.levels bits)) s = exec (.frameEnd (.whole f)) (s.withLc { s.blocks.lc with medium := .idle })) ∧
  (∀ (rest : List Bool), receiveLevels .idle (List.replicate 7 false ++ rest) = some none)

/-- A heard state frame, own or a peer's, is applied whole: the floor count rises by one whether or not the frame
takes effect, the digest is that of the new replica, and a frame without effect leaves the floor as it was (R37, R38,
R42). While a snapshot is received it goes into the Catch-up Buffer and is not applied; a 17th fails the attempt with
OVERFLOW (R37, R72, R75). Model's choices in which frames are without effect: a POST whose pass-bin set has bit 0 alone
(log 16), and a LIFT of a hold ID that two entries bear, by the level of the older one (log 25). -/
def Obligations.StateFramesAreAppliedOrBuffered : Prop :=
  (∀ (s : State) (r : Reception) (sender : Nat) (auth : Level) (body : FrameBody),
     s.Hearing r sender auth body →
     ∃ t, exec (.frameEnd r) s = .next t ∧
       t.re.count = s.re.count + 1 ∧ t.re.digest = t.re.replica.digest ∧ t.blocks.lc.tx = none ∧
       t.stationId = s.stationId ∧ t.config = s.config ∧
       (takesEffect s.re.replica auth sender body = false →
         t.re.replica = { s.re.replica with lots := s.re.replica.lots.map fun l => l.tested s.re.replica })) ∧
  (∀ (s : State) (f : RxFrame) (body : FrameBody), s.HearsPeer f body → body.isState = true →
     s.blocks.cu.phase = .receiving → s.blocks.du.leaving = false →
     ∃ t, exec (.frameEnd (.whole f)) s = .next t ∧ t.re = s.re ∧
       (s.blocks.cu.buffer.length < 16 →
         t.blocks.cu = { s.blocks.cu with buffer := s.blocks.cu.buffer ++ [⟨f.sender.toNat, false, body⟩] }) ∧
       (16 ≤ s.blocks.cu.buffer.length →
         t.blocks.cu.buffer = [] ∧ t.blocks.cu.attempts = s.blocks.cu.attempts + 1 ∧
         t.blocks.reported (.catchUpFailed .overflow s.blocks.cu.reference (s.blocks.cu.attempts + 1))))

/-- BID, CEDE and STEP START, each on a step in the state it needs, move that step and nothing else of the floor but the
hold history that the test of R42 sets (R42, R49 to R51). -/
def Obligations.StepFramesMoveOneStep : Prop :=
  ∀ (s : State) (r : Reception) (sender : Nat) (auth : Level) (lot k : Nat) (l : LotRec) (x : StepRec) (e : Nat),
    s.re.replica.lot? lot = some l → l.step? k = some x →
    (x.state = .waiting e → l.suspended = false → s.Hearing r sender auth (.bid lot k) →
      ∃ t, exec (.frameEnd r) s = .next t ∧ t.re.replica = s.re.replica.withStep lot k (.claimed sender e)) ∧
    (x.state = .claimed sender e → s.Hearing r sender auth (.cede lot k) →
      ∃ t, exec (.frameEnd r) s = .next t ∧ t.re.replica = s.re.replica.withStep lot k (.waiting e)) ∧
    (∀ kit, x.state = .claimed sender e → s.Hearing r sender auth (.stepStart lot k kit) →
      ∃ t, exec (.frameEnd r) s = .next t ∧ t.re.replica = s.re.replica.withStep lot k (.running sender kit e))

/-- A balanced STEP TALLY of a step RUNNING at its sender: the kit's count rises; with no passing unit the lot goes;
else the step is TALLIED and the next step opens with the passing units, or after the last step the lot has its release
owner; the lot's other steps and other fields, the other lots, the other kits, the Hold List and the ring are as before,
but for the hold history test (R42, R52). -/
def Obligations.StepTallyPassesOn : Prop :=
  ∀ (s : State) (r : Reception) (sender : Nat) (auth : Level) (lot k kit e p f lo i : Nat) (l : LotRec) (x : StepRec),
    s.re.replica.lot? lot = some l → l.step? k = some x → x.state = .running sender kit e → e = p + f + lo →
    s.Hearing r sender auth (.stepTally lot k kit e p f lo i) →
    ∃ t, exec (.frameEnd r) s = .next t ∧
      t.re.replica.holds = s.re.replica.holds ∧ t.re.replica.ring = s.re.replica.ring ∧
      (∀ c, s.re.replica.kit? kit = some c →
        t.re.replica.kit? kit = some { c with count := min 16777215 (c.count + i) }) ∧
      (∀ n, n ≠ kit → t.re.replica.kit? n = s.re.replica.kit? n) ∧
      (∀ n, n ≠ lot → t.re.replica.lot? n = (s.re.replica.lot? n).map fun y => y.tested s.re.replica) ∧
      (p = 0 → t.re.replica.lot? lot = none) ∧
      (p ≠ 0 → ∀ m, m = l.withStep k (.tallied sender kit e p f lo i) →
        t.re.replica.step? lot k = some ⟨x.spec, .tallied sender kit e p f lo i⟩ ∧
        (∀ j, j ≠ k → j ≠ k + 1 → t.re.replica.step? lot j = l.step? j) ∧
        (k < l.plan.length →
          (t.re.replica.step? lot (k + 1)).map StepRec.state = some (.waiting p) ∧
          t.re.replica.lot? lot = some ((m.withStep (k + 1) (.waiting p)).tested s.re.replica)) ∧
        (k = l.plan.length →
          t.re.replica.lot? lot = some ({ m with releaseOwner := some sender }.tested s.re.replica)))

/-- A HOLD is appended as the newest unless its target is held, its hold ID is present, it names a shipped lot, or 32
entries stand; the lots it covers for release get hold history (R42, R53). A LIFT removes its entry when the level is
OPERATOR or the sender's authority QUALITY, and clears no hold history (R54); that of two entries of one hold ID the
older one's level decides and both are removed is the model's choice (log 25). -/
def Obligations.HoldAndLiftApply : Prop :=
  (∀ (s : State) (r : Reception) (sender : Nat) (auth : Level) (sn : BitVec 8) (target : HoldTarget) (level : Level)
     (reason : Reason),
     s.Hearing r sender auth (.hold sn target level reason) →
     ∃ t, exec (.frameEnd r) s = .next t ∧
       t.re.replica.kits = s.re.replica.kits ∧ t.re.replica.ring = s.re.replica.ring ∧
       t.re.replica.lots = s.re.replica.lots.map (fun l => l.tested t.re.replica) ∧
       t.re.replica.holds =
         if s.re.replica.heldAs target || (s.re.replica.hold? sender sn).isSome || isShippedTarget s.re.replica target
             || 32 ≤ s.re.replica.holds.length then s.re.replica.holds
         else s.re.replica.holds ++ [⟨sender, sn, target, level, reason⟩]) ∧
  (∀ (s : State) (r : Reception) (sender : Nat) (auth : Level) (origin : Nat) (sn : BitVec 8),
     s.Hearing r sender auth (.lift origin sn) →
     ∃ t, exec (.frameEnd r) s = .next t ∧
       t.re.replica.kits = s.re.replica.kits ∧ t.re.replica.ring = s.re.replica.ring ∧
       t.re.replica.lots = s.re.replica.lots.map (fun l => l.tested t.re.replica) ∧
       t.re.replica.holds = match s.re.replica.hold? origin sn with
         | some h =>
           if h.level = .operator ∨ auth = .quality then
             s.re.replica.holds.filter fun x => !(x.origin == origin && x.serial == sn)
           else s.re.replica.holds
         | none => s.re.replica.holds)

/-- A SHIP of a lot that is present removes it and writes its ID into the ring of 16, over the oldest; of an absent
lot it changes nothing (R45, R55). A WITHDRAW removes a lot with no RUNNING step and writes no ring; a RESUME clears
the suspended mark; of an absent lot either changes nothing (R56, R57). A POST in range of an ID that is free, while
fewer than 64 lots are present, adds the lot as R48 describes it; any other POST changes nothing (R42, R48). None of the
four touches another lot, but for the hold history test, nor the Hold List or a kit. A POST is in range by the pass bins 1
to 15 alone: that bit 0 of a pass-bin set names no bin, so that a set with bit 0 alone is empty, is the model's choice (log
16). -/
def Obligations.LotsJoinLeaveAndResume : Prop :=
  (∀ (s : State) (r : Reception) (sender : Nat) (auth : Level) (lot quantity : Nat),
     s.Hearing r sender auth (.ship lot quantity) →
     ∃ t, exec (.frameEnd r) s = .next t ∧
       t.re.replica.lot? lot = none ∧
       (∀ n, n ≠ lot → t.re.replica.lot? n = (s.re.replica.lot? n).map fun l => l.tested s.re.replica) ∧
       t.re.replica.holds = s.re.replica.holds ∧ t.re.replica.kits = s.re.replica.kits ∧
       t.re.replica.ring =
         if (s.re.replica.lot? lot).isNone then s.re.replica.ring
         else if s.re.replica.ring.length < 16 then s.re.replica.ring ++ [lot]
         else s.re.replica.ring.drop 1 ++ [lot]) ∧
  (∀ (s : State) (r : Reception) (sender : Nat) (auth : Level) (lot : Nat),
     (s.Hearing r sender auth (.withdraw lot) → ∃ t, exec (.frameEnd r) s = .next t ∧
       t.re.replica.lot? lot = ((s.re.replica.lot? lot).filter LotRec.anyRunning).map (fun l => l.tested s.re.replica) ∧
       (∀ n, n ≠ lot → t.re.replica.lot? n = (s.re.replica.lot? n).map fun l => l.tested s.re.replica) ∧
       t.re.replica.holds = s.re.replica.holds ∧ t.re.replica.kits = s.re.replica.kits ∧
       t.re.replica.ring = s.re.replica.ring) ∧
     (s.Hearing r sender auth (.resume lot) → ∃ t, exec (.frameEnd r) s = .next t ∧
       t.re.replica.lot? lot =
         (s.re.replica.lot? lot).map (fun l => { l with suspended := false }.tested s.re.replica) ∧
       (∀ n, n ≠ lot → t.re.replica.lot? n = (s.re.replica.lot? n).map fun l => l.tested s.re.replica) ∧
       t.re.replica.holds = s.re.replica.holds ∧ t.re.replica.kits = s.re.replica.kits ∧
       t.re.replica.ring = s.re.replica.ring)) ∧
  (∀ (s : State) (r : Reception) (sender : Nat) (auth : Level) (p : PostBody), s.Hearing r sender auth (.post p) →
     ∃ t, exec (.frameEnd r) s = .next t ∧
       t.re.replica.holds = s.re.replica.holds ∧ t.re.replica.kits = s.re.replica.kits ∧
       t.re.replica.ring = s.re.replica.ring ∧
       (∀ n, n ≠ p.lot → t.re.replica.lot? n = (s.re.replica.lot? n).map fun l => l.tested s.re.replica) ∧
       t.re.replica.lot? p.lot =
         if (s.re.replica.lot? p.lot).isNone && decide (s.re.replica.lots.length < 64) && 1 ≤ p.posted
             && 1 ≤ p.specs.length && p.specs.length ≤ 6
             && p.specs.all (fun x => passSetNonEmpty x.passBins && 1 ≤ x.family) then
           some (LotRec.tested
             { lot := p.lot, device := p.device, posted := p.posted, lostAllowance := p.lostAllowance
               origin := sender, holdHistory := false, suspended := false, releaseOwner := none, confirmed := false
               plan := p.specs.zipIdx.map fun x => ⟨x.1, if x.2 = 0 then .waiting p.posted else .pending⟩ }
             s.re.replica)
         else (s.re.replica.lot? p.lot).map fun l => l.tested s.re.replica)

/-- An ORPHAN of a station returns its claimed and running steps to WAITING, suspends the lots of its running steps,
strands its kits and gives its COMPLETE lots to the ORPHAN's sender (R58). -/
def Obligations.OrphanFreesTheFloor : Prop :=
  ∀ (s : State) (r : Reception) (sender : Nat) (auth : Level) (gone : Nat), s.Hearing r sender auth (.orphan gone) →
    ∃ t, exec (.frameEnd r) s = .next t ∧
      t.re.replica.holds = s.re.replica.holds ∧ t.re.replica.ring = s.re.replica.ring ∧
      t.re.replica.kits = s.re.replica.kits.map (fun k =>
        if k.location = .at gone then { k with location := .stranded gone } else k) ∧
      ∀ n l, s.re.replica.lot? n = some l → ∃ m, t.re.replica.lot? n = some m ∧
        (l.ownedBy gone = true → m.releaseOwner = some sender ∧ m.confirmed = false ∧ m.plan = l.plan) ∧
        (l.ownedBy gone = false →
          m.releaseOwner = l.releaseOwner ∧
          m.plan = l.plan.map (fun x => if x.state.heldBy gone then ⟨x.spec, .waiting x.state.entered⟩ else x) ∧
          m.suspended = (l.suspended || l.plan.any fun x => x.state.runningAt gone))

/-- The six kit frames on a kit that is present, and on one that is not, where KIT ADD alone has an effect; the other
kits, the lots, the Hold List and the ring are left alone but for the hold history test (R42, R59, R60). -/
def Obligations.KitFramesMoveAndRenew : Prop :=
  ∀ (s : State) (r : Reception) (sender : Nat) (auth : Level) (k : Nat),
    (∀ c, s.re.replica.kit? k = some c →
      (s.Hearing r sender auth (.kitTake k) → ∃ t, exec (.frameEnd r) s = .next t ∧
        s.re.replica.KitBecomes t.re.replica k
          (some (if c.location = .shelf ∧ c.due = false then { c with location := .at sender } else c))) ∧
      (s.Hearing r sender auth (.kitGive k) → ∃ t, exec (.frameEnd r) s = .next t ∧
        s.re.replica.KitBecomes t.re.replica k
          (some (if c.location = .at sender then { c with location := .shelf } else c))) ∧
      (s.Hearing r sender auth (.kitFound k) → ∃ t, exec (.frameEnd r) s = .next t ∧
        s.re.replica.KitBecomes t.re.replica k (some (match c.location with
          | .stranded _ => { c with location := .shelf }
          | _ => c))) ∧
      (s.Hearing r sender auth (.kitServiced k) → ∃ t, exec (.frameEnd r) s = .next t ∧
        s.re.replica.KitBecomes t.re.replica k (some (if c.location = .shelf then { c with count := 0 } else c))) ∧
      (s.Hearing r sender auth (.kitRetire k) → ∃ t, exec (.frameEnd r) s = .next t ∧
        s.re.replica.KitBecomes t.re.replica k (if c.location = .shelf then none else some c)) ∧
      (∀ f limit, s.Hearing r sender auth (.kitAdd k f limit) → ∃ t, exec (.frameEnd r) s = .next t ∧
        s.re.replica.KitBecomes t.re.replica k (some c))) ∧
    (s.re.replica.kit? k = none →
      (∀ body, (body = .kitTake k ∨ body = .kitGive k ∨ body = .kitFound k ∨ body = .kitServiced k ∨
          body = .kitRetire k) → s.Hearing r sender auth body → ∃ t, exec (.frameEnd r) s = .next t ∧
        s.re.replica.KitBecomes t.re.replica k none) ∧
      (∀ f limit, s.Hearing r sender auth (.kitAdd k f limit) → ∃ t, exec (.frameEnd r) s = .next t ∧
        s.re.replica.KitBecomes t.re.replica k
          (if 1 ≤ k ∧ k ≤ 255 ∧ s.re.replica.kits.length < 24 ∧ 1 ≤ f ∧ 1 ≤ limit then some ⟨k, f, .shelf, 0, limit⟩
           else none)))

/-- A good peer frame makes its sender PRESENT with the silence timer at 0 and a BEACON's content recorded; one that
bears the own ID raises ID CONFLICT once: the Presence Unit does nothing on a further one, so a BEACON with the own ID
then changes nothing at all; a sender of 0 or 63 has no record (R24). -/
def Obligations.PeerFramesAreRecorded : Prop :=
  ∀ (s : State) (f : RxFrame) (body : FrameBody), s.HearsPeer f body → s.blocks.du.leaving = false →
    (f.sender.toNat ≠ s.stationId → 1 ≤ f.sender.toNat → f.sender.toNat ≤ 62 →
      ∃ t, exec (.frameEnd (.whole f)) s = .next t ∧
        t.blocks.pu.peer f.sender.toNat = ⟨f.sender.toNat, .present, some 0, match body with
          | .beacon c => some c
          | _ => (s.blocks.pu.peer f.sender.toNat).beacon⟩ ∧
        (∀ n, n ≠ f.sender.toNat → t.blocks.pu.peer n = s.blocks.pu.peer n) ∧
        ((s.blocks.pu.peer f.sender.toNat).state = .absent → t.blocks.reported (.peerPresent f.sender.toNat))) ∧
    (f.sender.toNat = s.stationId → s.blocks.pu.conflictRaised = false →
      ∃ t, exec (.frameEnd (.whole f)) s = .next t ∧ t.blocks.pu.peers = s.blocks.pu.peers ∧
        t.blocks.pu.conflictRaised = true ∧ t.blocks.reported .idConflict) ∧
    (f.sender.toNat = s.stationId → s.blocks.pu.conflictRaised = true →
      hearPeer s.view ⟨f.sender.toNat, f.target.toNat, false, body⟩ s.blocks = s.blocks ∧
      (∀ c, body = .beacon c → s.blocks.cu.reference ≠ some s.stationId →
        exec (.frameEnd (.whole f)) s = .next (State.finish (s.withLc { s.blocks.lc with medium := .ended 0 })))) ∧
    (f.sender.toNat ≠ s.stationId → (f.sender.toNat = 0 ∨ f.sender.toNat = 63) →
      ∃ t, exec (.frameEnd (.whole f)) s = .next t ∧ t.blocks.pu.peers = s.blocks.pu.peers ∧
        t.blocks.pu.conflictRaised = s.blocks.pu.conflictRaised)

/-- A member of the floor that hears a member's BEACON with a count ahead of its own, or with its own count, another
digest and a lower sender, enters JOINING and reports DIVERGED (R28, R29). -/
def Obligations.DivergenceEndsMembership : Prop :=
  ∀ (s : State) (f : RxFrame) (c : Beacon), s.HearsPeer f (.beacon c) → isMember s.blocks.station = true →
    f.sender.toNat ≠ s.stationId → 1 ≤ f.sender.toNat → f.sender.toNat ≤ 62 → isMember c.state = true →
    2 ≤ s.config.attemptLimit →
    (ahead c.count s.re.count = true → ∃ t, exec (.frameEnd (.whole f)) s = .next t ∧
      t.blocks.station = .joining ∧ t.blocks.du.leaving = false ∧ t.blocks.reported (.diverged .ahead)) ∧
    (c.count = s.re.count → c.digest ≠ s.re.digest → f.sender.toNat < s.stationId →
      ∃ t, exec (.frameEnd (.whole f)) s = .next t ∧
        t.blocks.station = .joining ∧ t.blocks.du.leaving = false ∧ t.blocks.reported (.diverged .digest))

/-- A CATCH REQ for this station opens a serve session at a member that serves no one, and SNAP BEGIN from the
reference begins RECEIVING at a requester whose answer timer runs, the model's reading of log 29 (R64, R66, R71). A
SNAP END that matches installs the snapshot as the replica with count C and digest D; with nothing buffered the
station is ACTIVE on it and reports JOINED (R73, R74). -/
def Obligations.CatchUpBeginsAndInstalls : Prop :=
  (∀ (s : State) (f : RxFrame), s.blocks.du.leaving = false → f.target.toNat = s.stationId →
     f.sender.toNat ≠ s.stationId →
     (s.HearsPeer f .catchReq → isMember s.blocks.station = true → s.blocks.cu.session = none →
       ∃ t, exec (.frameEnd (.whole f)) s = .next t ∧ t.re = s.re ∧
         t.blocks.cu = { s.blocks.cu with session := some ⟨f.sender.toNat, .open, 0, 0, 0⟩ }) ∧
     (∀ c d l h k, s.HearsPeer f (.snapBegin c d l h k) → s.blocks.cu.reference = some f.sender.toNat →
       s.blocks.cu.phase = .requesting → s.blocks.cu.answerTimer.isSome = true →
       ∃ t, exec (.frameEnd (.whole f)) s = .next t ∧ t.re = s.re ∧
         t.blocks.cu = { s.blocks.cu with
           phase := .receiving, answerTimer := none, deferTimer := none, snapshotTimer := some 500
           expected := 0, buffer := [], copy := .receiving ⟨c, d, l, h, k, none, ⟨[], [], [], []⟩⟩ })) ∧
  (∀ (s : State) (f : RxFrame) (c d : Word32) (n : Nat) (a : Assembly),
     s.HearsPeer f (.snapEnd c d n) → s.blocks.du.leaving = false →
     f.target.toNat = s.stationId → s.blocks.cu.reference = some f.sender.toNat →
     s.blocks.cu.phase = .receiving → s.blocks.cu.copy = .receiving a → s.blocks.cu.buffer = [] →
     n = s.blocks.cu.expected → n = 2 * a.lots + a.holds + a.kits + 1 → c = a.count → d = a.digest →
     a.rep.digest = a.digest →
     ∃ t, exec (.frameEnd (.whole f)) s = .next t ∧
       t.re = ⟨a.rep, c, d⟩ ∧ t.blocks.station = .active ∧ t.blocks.cu.phase = .none ∧ t.blocks.cu.attempts = 0 ∧
       t.blocks.cu.reference = none ∧ t.blocks.cu.copy = .empty ∧ t.blocks.cu.snapshotTimer = none ∧
       t.blocks.reported (.joined c f.sender.toNat))

/-! ### Timers -/

/-- LISTEN_TIMER_EXPIRY: a station still LISTENING founds the floor; one in the listen wait that hears a member
begins a catch-up, founds, or listens on (R23, R62). -/
def Obligations.ListenPeriodEnds : Prop :=
  ∀ s : State, s.blocks.pu.listenTimer.isSome = true → s.blocks.du.leaving = false →
    (s.blocks.station = .listening ∨
        s.blocks.station = .joining ∧ s.blocks.pu.listenWait = true ∧ memberPresent s.blocks = false ∧
          mayFound s.view s.blocks = true →
      ∃ t, exec .listenTimerExpiry s = .next t ∧ t.blocks.station = .active ∧ t.blocks.pu.listenTimer = none ∧
        t.blocks.pu.listenWait = false ∧ t.blocks.pu.beaconTimer = some s.config.beaconInterval ∧
        t.blocks.reported .founded) ∧
    (∀ ref, s.blocks.station = .joining → s.blocks.pu.listenWait = true → memberPresent s.blocks = true →
      chooseReference s.blocks = some ref →
      ∃ t, exec .listenTimerExpiry s = .next t ∧ t.blocks.station = .joining ∧ t.blocks.pu.listenTimer = none ∧
        t.blocks.pu.listenWait = false ∧ t.blocks.cu.phase = .requesting ∧ t.blocks.cu.reference = some ref ∧
        t.blocks.cu.attempts = 0) ∧
    (s.blocks.station = .joining → s.blocks.pu.listenWait = true → memberPresent s.blocks = false →
      mayFound s.view s.blocks = false →
      ∃ t, exec .listenTimerExpiry s = .next t ∧ t.blocks.station = .joining ∧
        t.blocks.pu.listenTimer = some 2500 ∧ t.blocks.pu.listenWait = true)

/-- BEACON_TIMER_EXPIRY: the timer restarts and a BEACON is offered, absorbed while another stands (R10, R26).
SILENCE_TIMER_EXPIRY of a PRESENT peer whose timer has passed its limit, 4 intervals of its last beacon or 4,000 ms
with none recorded, makes it ABSENT, keeps its last beacon and reports PEER ABSENT (R25); within its limit it changes
nothing, the model's reading of such a command (log 2, no rule).
PARK_TIMER_EXPIRY takes an ACTIVE station to PARKED and reports it (R32, R33). -/
def Obligations.PresenceTimersExpire : Prop :=
  (∀ s : State, s.blocks.pu.beaconTimer.isSome = true → acceptsFrames s.blocks.station = true →
     exec .beaconTimerExpiry s = .next (State.finish { s with blocks := { s.blocks with
       pu := { s.blocks.pu with beaconTimer := some s.config.beaconInterval }
       lc :=
         if s.blocks.lc.standing isBeacon then s.blocks.lc
         else if s.blocks.lc.queue.length < 8 then
           { s.blocks.lc with queue := insertEntry ⟨blankBeacon, 63, .pu, false, 0, false, false⟩ s.blocks.lc.queue }
         else
           { s.blocks.lc with
             waiting := s.blocks.lc.waiting ++ [⟨blankBeacon, 63, .pu, false, 0, false, false⟩] } } })) ∧
  (∀ (s : State) (p n limit : Nat), (s.blocks.pu.peer p).state = .present → (s.blocks.pu.peer p).silence = some n →
     limit = (match (s.blocks.pu.peer p).beacon with
       | some c => 4 * (10 * c.interval)
       | none => 4000) →
     (limit < n → s.blocks.du.leaving = false → ∃ t, exec (.silenceTimerExpiry p) s = .next t ∧
       t.blocks.pu.peer p = { s.blocks.pu.peer p with state := .absent, silence := none } ∧
       (∀ q, q ≠ p → t.blocks.pu.peer q = s.blocks.pu.peer q) ∧ t.blocks.reported (.peerAbsent p)) ∧
     (n ≤ limit → exec (.silenceTimerExpiry p) s = .next s.finish)) ∧
  (∀ s : State, s.blocks.du.leaving = false → s.blocks.station = .active → s.blocks.pu.parkTimer.isSome = true →
     ∃ t, exec .parkTimerExpiry s = .next t ∧ t.blocks.station = .parked ∧ t.blocks.pu.parkTimer = none ∧
       t.blocks.pu.beaconTimer = some s.config.beaconInterval ∧ t.re = s.re ∧ t.blocks.reported .parked)

/-- ANSWER_TIMER_EXPIRY and SNAPSHOT_TIMER_EXPIRY fail the attempt: RETRY WAIT below the attempt limit, ISOLATED at
it (R64, R71, R75, R76). DEFER_TIMER_EXPIRY asks the same reference again; RETRY_TIMER_EXPIRY begins a new attempt at
the reference R62 chooses (R62, R63, R65, R75). -/
def Obligations.AttemptTimersExpire : Prop :=
  (∀ (s : State) (c : Instr) (cause : AttemptCause), s.blocks.du.leaving = false →
     (c = .answerTimerExpiry ∧ s.blocks.cu.answerTimer.isSome = true ∧ cause = .noAnswer ∨
       c = .snapshotTimerExpiry ∧ s.blocks.cu.snapshotTimer.isSome = true ∧ cause = .silence) →
     ∃ t, exec c s = .next t ∧ t.re = s.re ∧
       t.blocks.cu.attempts = s.blocks.cu.attempts + 1 ∧ t.blocks.cu.reference = none ∧ t.blocks.cu.buffer = [] ∧
       t.blocks.cu.answerTimer = none ∧ t.blocks.cu.snapshotTimer = none ∧ t.blocks.cu.deferTimer = none ∧
       t.blocks.reported (.catchUpFailed cause s.blocks.cu.reference (s.blocks.cu.attempts + 1)) ∧
       (s.blocks.cu.attempts + 1 < s.config.attemptLimit →
         t.blocks.station = s.blocks.station ∧ t.blocks.cu.phase = .retryWait ∧
         t.blocks.cu.retryTimer = some s.config.beaconInterval) ∧
       (s.config.attemptLimit ≤ s.blocks.cu.attempts + 1 →
         t.blocks.station = .isolated ∧ t.blocks.cu.phase = .none ∧ t.blocks.cu.retryTimer = none ∧
         t.blocks.reported (.isolated cause))) ∧
  (∀ (s : State) (ref : Nat), acceptsFrames s.blocks.station = true →
     (s.blocks.cu.deferTimer.isSome = true → s.blocks.cu.reference = some ref →
       exec .deferTimerExpiry s = .next (State.finish (State.offered { s with blocks := { s.blocks with
         cu := { s.blocks.cu with phase := .requesting, deferTimer := none } } } .catchReq ref .cu))) ∧
     (s.blocks.cu.retryTimer.isSome = true → chooseReference s.blocks = some ref →
       exec .retryTimerExpiry s = .next (State.finish (State.offered { s with blocks := { s.blocks with
         cu := { s.blocks.cu with
           phase := .requesting, reference := some ref, defers := 0, expected := 0, buffer := [], copy := .empty
           retryTimer := none, answerTimer := none, snapshotTimer := none, deferTimer := none } } } .catchReq ref .cu))))

/-- A deference timer starts with (4 tier + depth) bid units, 8 more when PARKED, and one of duration 0 is a BID at
once (R83 to R85). DEFERENCE_TIMER_EXPIRY: the timer is gone, and a station eligible for the step offers a BID for it
(R85). -/
def Obligations.DeferenceTimersStartAndEnd : Prop :=
  (∀ (v : View) (b : Blocks) (l : LotRec) (k : Nat) (x : StepRec) (ms : Nat),
     b.du.deferring l.lot k = false → b.lc.hasBid l.lot k = false → eligible v b l x = true →
     ms = (4 * tier v b x.spec + b.du.queue.length) * v.cfg.bidUnit
       + (if b.station = .parked then 8 * v.cfg.bidUnit else 0) →
     deferStep v l k x b =
       if ms = 0 then { b with lc := offerLc ⟨.bid l.lot k, 63, .du, false, 0, false, false⟩ b.lc }
       else { b with du := { b.du with timers := b.du.timers ++ [⟨l.lot, k, ms⟩] } }) ∧
  (∀ (s : State) (lot k : Nat), s.blocks.du.deferring lot k = true →
     (eligibleFor s.view s.blocks lot k = true →
       exec (.deferenceTimerExpiry lot k) s = .next (State.finish (State.offered { s with blocks := { s.blocks with
         du := { s.blocks.du with timers := s.blocks.du.timers.filter fun t => !(t.lot == lot && t.step == k) } } }
         (.bid lot k) 63 .du))) ∧
     (eligibleFor s.view s.blocks lot k = false →
       exec (.deferenceTimerExpiry lot k) s = .next (State.finish { s with blocks := { s.blocks with
         du := { s.blocks.du with timers := s.blocks.du.timers.filter fun t => !(t.lot == lot && t.step == k) } } })))

/-- The tier of a step, by the first of R82's conditions that applies; a slot presents a program it names in LOADED,
VERIFYING or VERIFIED, and the band is read whether STABLE or CHANGING. -/
def Obligations.TierIsTheFirstThatApplies : Prop :=
  ∀ (v : View) (b : Blocks) (sp : StepSpec) (present : SlotRec → Prop),
    (∀ r, present r ↔ (r.state = .loaded ∨ r.state = .verifying ∨ r.state = .verified) ∧
      ∃ p, r.prog = some p ∧ p.program = sp.program ∧ p.revision = sp.revision) →
    (usableFitted v b.hr sp.family = none → tier v b sp = 3) ∧
    (usableFitted v b.hr sp.family ≠ none → b.hr.band ≠ sp.band → tier v b sp = 2) ∧
    (usableFitted v b.hr sp.family ≠ none → b.hr.band = sp.band → ¬ present b.le.active → ¬ present b.le.staged →
      tier v b sp = 1) ∧
    (usableFitted v b.hr sp.family ≠ none → b.hr.band = sp.band → present b.le.active ∨ present b.le.staged →
      tier v b sp = 0)

/-- An expiry of a timer that does not run changes nothing (the model's reading, log 2). -/
def Obligations.StoppedTimersDoNotExpire : Prop :=
  ∀ (c : Instr) (s : State),
    (c = .listenTimerExpiry ∧ s.blocks.pu.listenTimer = none ∨ c = .beaconTimerExpiry ∧ s.blocks.pu.beaconTimer = none ∨
      c = .parkTimerExpiry ∧ s.blocks.pu.parkTimer = none ∨ c = .answerTimerExpiry ∧ s.blocks.cu.answerTimer = none ∨
      c = .snapshotTimerExpiry ∧ s.blocks.cu.snapshotTimer = none ∨
      c = .deferTimerExpiry ∧ s.blocks.cu.deferTimer = none ∨ c = .retryTimerExpiry ∧ s.blocks.cu.retryTimer = none ∨
      (∃ p, c = .silenceTimerExpiry p ∧ (s.blocks.pu.peer p).silence = none) ∨
      (∃ l k, c = .deferenceTimerExpiry l k ∧ s.blocks.du.deferring l k = false) ∨
      (c = .blockTimeout ∨ c = .verifyTimeout ∨ c = .swapTimeout ∨ c = .purgeTimeout) ∧ s.blocks.le.op = none ∨
      c = .insertionTimeout ∧ s.blocks.iw.insertion = .idle) →
    exec c s = .next s.finish

/-! ### The work of the blocks -/

/-- The life of a Dispatch Queue entry. An own BID heard with effect adds its step behind the entries, which are still
this station's, with CLAIM WON and the tier (R82, R86). Reconcile keeps the entries whose step the replica shows CLAIMED
by or RUNNING at this station, in their order; CLAIM LOST of a removed one by its cause, with the Step Counters for one
in run, after the insertion in test if there is one (R88, R147). After an evaluation of a queue that names no step twice
(R87, kept by EveryStepKeepsTheDispatchQueue) the head of a working station that has no cede cause is not WON, and one
before its run is READY exactly while its readiness holds (R90, R91); a PREPARING head that is ready becomes READY with its STEP START offered (R91). An own STEP START heard with effect makes the head
RUNNING, with fresh Step Counters and an empty Yield Window (R92, R134, R142). Model's choices in this: that an entry
marked orphaned stays where an installed replica shows its step as this station's again, where R89 has it removed at the
entry to ACTIVE (log 62); the causes ceded, withdrawn and shipped, and that an entry has ended with its spent lot, as
the entry keeps them from the frame that took its step (log 13); that an own STEP START starts the counters whatever the
insertion state (log 42), and that they keep the pass set and the kit of the start (log 14). -/
def Obligations.DispatchQueueLives : Prop :=
  (∀ (s : State) (auth : Level) (lot k e : Nat) (l : LotRec) (y : StepRec),
     s.re.replica.lot? lot = some l → l.step? k = some y → y.state = .waiting e → l.suspended = false →
     isMember s.blocks.station = true → s.blocks.du.leaving = false →
     (∀ q ∈ s.blocks.du.queue, ∃ z, s.re.replica.step? q.lot q.step = some z ∧ z.state.heldBy s.stationId = true) →
     s.Hearing .own s.stationId auth (.bid lot k) →
     ∃ t, exec (.frameEnd .own) s = .next t ∧ t.blocks.steps = s.blocks.steps ++ [(lot, k)] ∧
       t.blocks.reported (.claimWon lot k (tier s.view s.blocks y.spec))) ∧
  (∀ (v : View) (after : Bool) (b : Blocks) (mine : QueueEntry → Bool),
     (∀ e, mine e = true ↔ ∃ z n, v.rep.step? e.lot e.step = some z ∧
       (z.state = .claimed v.id n ∨ ∃ kit, z.state = .running v.id kit n)) →
     (reconcile v after b).du.queue = b.du.queue.filter mine ∧
     (∀ e, b.du.queue = [e] → mine e = false →
       (talliedHere v e = true ∨ e.left = some .ended → (reconcile v after b).cli = b.cli) ∧
       (∀ c, talliedHere v e = false → e.left ≠ some .ended →
         (e.orphaned = true ∧ c = .orphaned ∨ e.orphaned = false ∧ after = true ∧ c = .notOwnAfterCatchUp ∨
           e.orphaned = false ∧ after = false ∧
             (e.left = some .ceded ∧ c = .ceded ∨ e.left = some .withdrawn ∧ c = .withdrawn ∨
               e.left = some .shipped ∧ c = .shipped ∨ (e.left = some .notOwn ∨ e.left = none) ∧ c = .notOwn)) →
         (beforeRun e.phase = true → (reconcile v after b).cli = raiseCli (.claimLost e.lot e.step c none) b.cli) ∧
         (beforeRun e.phase = false → (∀ m n, b.iw.insertion ≠ .inTest m n) →
           (reconcile v after b).cli = raiseCli (.claimLost e.lot e.step c (some b.iw.counters)) b.cli) ∧
         (∀ m n, beforeRun e.phase = false → b.iw.insertion = .inTest m n →
           (reconcile v after b).cli = b.cli ∧
           (reconcile v after b).du.lostAfterTest = b.du.lostAfterTest ++ [⟨e.lot, e.step, c⟩])))) ∧
  (∀ (v : View) (b : Blocks) (h : QueueEntry) (q : List QueueEntry), b.steps.Nodup →
     (evaluateDispatch v b).du.queue = h :: q →
     (isWorking b.station = true → h.cede = none → h.phase ≠ .won) ∧
     (h.phase = .preparing ∨ h.phase = .ready → (h.phase = .ready ↔ ready v (evaluateDispatch v b) h = true))) ∧
  (∀ (v : View) (b : Blocks) (h : QueueEntry) (kit : Nat), h.phase = .preparing → ready v b h = true →
     b.hr.fitted = some kit →
     headReady v h b = { updateEntry h.lot h.step (fun e => { e with phase := .ready }) b with
       lc := offerLc (internal (.stepStart h.lot h.step kit) .du) b.lc }) ∧
  (∀ (s : State) (auth : Level) (lot k kit e : Nat) (l : LotRec) (y : StepRec) (h : QueueEntry) (q : List QueueEntry),
     s.re.replica.lot? lot = some l → l.step? k = some y → y.state = .claimed s.stationId e →
     s.blocks.du.queue = h :: q → h.lot = lot → h.step = k → s.blocks.du.leaving = false →
     s.Hearing .own s.stationId auth (.stepStart lot k kit) →
     ∃ t h' q', exec (.frameEnd .own) s = .next t ∧ t.blocks.du.queue = h' :: q' ∧ h'.lot = lot ∧ h'.step = k ∧
       h'.phase = .running ∧ t.blocks.iw.window = [] ∧
       t.blocks.iw.counters = ⟨some lot, k, e, 0, 0, 0, 0, 0, false, y.spec.passBins, kit⟩)

/-- The Handler Record chooses for a kit request by the first of R103's cases, the lowest kit ID first. After its own
TAKE has gone without effect or INVALID it chooses again with that kit tried; heard with effect, the TAKE brings the kit
here, and the request's phase is FITTING with KIT NEEDED for it (R104), and stays so at the end of the command while no
hold covers the head. At the end of a command a request is for the head, which has no cede cause (R105). A request that
ends, in whatever phase (log 35), leaves no KIT TAKE but one in transmission (R11, R105); that one is marked for removal
at the end of a transmission that fails, by the model's choice (log 7). That a READY head which gets cede cause KIT so
is evaluated at once is the model's choice (log 63); that its own TAKE gives phase FITTING also while a usable kit is
fitted is log 54's. -/
def Obligations.KitRequestsChooseAndEnd : Prop :=
  (∀ (v : View) (b : Blocks) (r : KitRequest) (here shelf : KitRec → Bool),
     rising (v.rep.kits.map KitRec.kit) = true →
     (∀ k, here k = true ↔ k.location = .at v.id ∧ k.family = r.family ∧ k.count < k.limit ∧
       v.rep.heldAs (.kit k.kit) = false ∧ k.kit ∉ b.hr.gives) →
     (∀ k, shelf k = true ↔ k.location = .shelf ∧ k.family = r.family ∧ k.count < k.limit ∧
       v.rep.heldAs (.kit k.kit) = false ∧ k.kit ∉ r.tried) →
     (usableFitted v b.hr r.family ≠ none → chooseKit v r b = endRequest b) ∧
     (∀ j, usableFitted v b.hr r.family = none → b.hr.fitted = some j →
       chooseKit v r b = raise (.kitNeeded r.lot r.step r.family (some j) none)
         { b with hr := { b.hr with request := some { r with phase := .removal, candidate := none } } }) ∧
     (∀ c ∈ v.rep.kits, b.hr.fitted = none → here c = true → (∀ d ∈ v.rep.kits, here d = true → c.kit ≤ d.kit) →
       chooseKit v r b = raise (.kitNeeded r.lot r.step r.family none (some c.kit))
         { b with hr := { b.hr with request := some { r with phase := .fitting, candidate := some c.kit } } }) ∧
     (∀ c ∈ v.rep.kits, b.hr.fitted = none → (∀ d ∈ v.rep.kits, here d = false) → b.station ≠ .isolated →
       shelf c = true → (∀ d ∈ v.rep.kits, shelf d = true → c.kit ≤ d.kit) →
       chooseKit v r b = { b with
         hr := { b.hr with request := some { r with phase := .taking, candidate := some c.kit } }
         lc := if acceptsFrames b.station then offerLc (internal (.kitTake c.kit) .hr) b.lc else b.lc }) ∧
     (b.hr.fitted = none → (∀ d ∈ v.rep.kits, here d = false) →
       (b.station = .isolated ∨ ∀ d ∈ v.rep.kits, shelf d = false) →
       chooseKit v r b = setCede .kit r.lot r.step (endRequest b))) ∧
  (∀ (v : View) (b : Blocks) (r : KitRequest) (k : Nat) (sig : Signal),
     b.hr.request = some r → r.phase = .taking → r.candidate = some k →
     takeInvalid v k b = chooseKit v { r with tried := r.tried ++ [k] } b ∧
     (sig.effect = false → takeOutcome v sig k b = chooseKit v { r with tried := r.tried ++ [k] } b) ∧
     (sig.effect = true → takeOutcome v sig k b = raise (.kitNeeded r.lot r.step r.family none (some k))
       { b with hr := { b.hr with request := some { r with phase := .fitting, candidate := some k } } })) ∧
  (∀ (s : State) (auth : Level) (r : KitRequest) (k : Nat) (c : KitRec) (h : QueueEntry) (q : List QueueEntry)
     (z : StepRec),
     s.Hearing .own s.stationId auth (.kitTake k) → s.blocks.du.leaving = false →
     s.blocks.hr.request = some r → r.phase = .taking → r.candidate = some k →
     s.blocks.du.queue = h :: q → h.lot = r.lot → h.step = r.step → h.cede = none →
     s.re.replica.step? h.lot h.step = some z → z.state.heldBy s.stationId = true →
     s.re.replica.kit? k = some c → c.location = .shelf → c.count < c.limit →
     ∃ t, exec (.frameEnd .own) s = .next t ∧ t.re.replica.kit? k = some { c with location := .at s.stationId } ∧
       t.blocks.reported (.kitNeeded r.lot r.step r.family none (some k)) ∧
       (∀ l, s.re.replica.lot? h.lot = some l →
         s.re.replica.coveredStep l z.spec s.stationId s.blocks.hr.fitted = false →
         t.blocks.hr.request = some { r with phase := .fitting, candidate := some k })) ∧
  (∀ (s : State) (r : KitRequest), s.finish.blocks.hr.request = some r →
     ∃ h q, s.finish.blocks.du.queue = h :: q ∧ h.lot = r.lot ∧ h.step = r.step ∧ h.cede = none) ∧
  (∀ (b : Blocks) (r : KitRequest), b.hr.request = some r →
     (endRequest b).hr.request = none ∧ (∀ e ∈ (endRequest b).lc.waiting, ∀ k, e.body ≠ .kitTake k) ∧
     ∀ e ∈ (endRequest b).lc.queue, ∀ k, e.body = .kitTake k → e.inTx = true ∧ e.removal = true)

/-- The Load Engine's evaluation. A LOAD or VERIFY in flight whose pair is held or not wanted is aborted: a PURGE of
its slot begins; any other operation goes on (R116, R126). That the abort signals the slot, and so makes an evaluation
due, also where an aborted LOAD leaves it LOADING as it was (R113), is the model's choice (log 57). With none in flight it begins the head's: VERIFY of a LOADED
ACTIVE slot, SWAP to a VERIFIED STAGED one once all else is ready, VERIFY of a LOADED STAGED one, LOAD into ACTIVE
(R117); while the head runs, the VERIFY of a LOADED STAGED slot, else the LOAD of the first missing program behind the
head into a STAGED slot free for it (R118). At the end of a command no LOAD or VERIFY of a held or unwanted pair is in
flight. -/
def Obligations.LoadEngineChooses : Prop :=
  (∀ (v : View) (b : Blocks) (kind : OpKind) (x : Slot) (tm : Nat) (p : SlotProgram),
     b.le.op = some ⟨kind, some x, tm⟩ → (b.le.slot x).prog = some p →
     ((kind = .load ∨ kind = .verify) →
       (v.rep.heldAs (.program p.program p.revision) = true ∨ wanted v b (p.program, p.revision) = false) →
       evaluateLoad v b = b.withLe { b.le.put x ⟨.loading, some p⟩ with
         op := some ⟨.purge, some x, 5000⟩, sent := b.le.sent ++ [.abort x] } true) ∧
     (kind = .purge ∨ v.rep.heldAs (.program p.program p.revision) = false ∧
         wanted v b (p.program, p.revision) = true → evaluateLoad v b = b)) ∧
  (∀ (v : View) (b : Blocks) (tm : Nat), b.le.op = some ⟨.swap, none, tm⟩ → evaluateLoad v b = b) ∧
  (∀ (v : View) (b : Blocks) (h : QueueEntry) (q : List QueueEntry) (y : StepRec) (p : SlotProgram),
     b.le.op = none → isWorking b.station = true → b.du.queue = h :: q →
     (h.phase = .preparing ∨ h.phase = .ready) → h.cede = none →
     v.rep.step? h.lot h.step = some y → (p.program, p.revision) = y.spec.pair →
     v.rep.heldAs (.program p.program p.revision) = false →
     (b.le.active = ⟨.loaded, some p⟩ →
       evaluateLoad v b = b.withLe { b.le with
         active := ⟨.verifying, some p⟩, op := some ⟨.verify, some .active, 5000⟩
         sent := b.le.sent ++ [.verify .active p.checksum] } true) ∧
     (b.le.active.presents y.spec.pair = false → b.le.staged = ⟨.verified, some p⟩ → readyButSlot v b h = true →
       evaluateLoad v b = b.withLe { b.le with
         op := some ⟨.swap, none, 5000⟩, sent := b.le.sent ++ [.swap] } b.du.evalDue) ∧
     (b.le.active.presents y.spec.pair = false → b.le.staged = ⟨.loaded, some p⟩ →
       evaluateLoad v b = b.withLe { b.le with
         staged := ⟨.verifying, some p⟩, op := some ⟨.verify, some .staged, 5000⟩
         sent := b.le.sent ++ [.verify .staged p.checksum] } true) ∧
     (b.le.active.presents y.spec.pair = false → b.le.staged.presents y.spec.pair = false →
       (∀ l ∈ v.rep.lots, ∀ x ∈ l.plan, x.state.runningAt v.id = false) →
       evaluateLoad v b = b.withLe { b.le with
         active := ⟨.loading, some ⟨y.spec.program, y.spec.revision, y.spec.checksum, y.spec.blocks, 0, 0⟩⟩
         op := some ⟨.load, some .active, v.cfg.blockTimeout⟩
         sent := b.le.sent ++ [.load .active y.spec.program y.spec.revision 0 y.spec.blocks y.spec.checksum] } true)) ∧
  (∀ (v : View) (b : Blocks) (h : QueueEntry) (q : List QueueEntry),
     b.le.op = none → isWorking b.station = true → b.du.queue = h :: q → beforeRun h.phase = false →
     b.le.active.state = .verified →
     (∀ p, b.le.staged = ⟨.loaded, some p⟩ → wanted v b (p.program, p.revision) = true →
       v.rep.heldAs (.program p.program p.revision) = false →
       evaluateLoad v b = b.withLe { b.le with
         staged := ⟨.verifying, some p⟩, op := some ⟨.verify, some .staged, 5000⟩
         sent := b.le.sent ++ [.verify .staged p.checksum] } true) ∧
     (∀ pre e post y, q = pre ++ e :: post → v.rep.step? e.lot e.step = some y → e.cede = none →
       (b.le.staged.state = .unknown ∨ b.le.staged.state = .empty ∨ b.le.staged.state = .failed ∨
         ∃ p : SlotProgram, (b.le.staged = ⟨.loaded, some p⟩ ∨ b.le.staged = ⟨.verified, some p⟩) ∧
           wanted v b (p.program, p.revision) = false) →
       v.rep.heldAs (.program y.spec.program y.spec.revision) = false → b.le.active.presents y.spec.pair = false →
       (∀ x ∈ pre, x.cede = none → ∀ z, v.rep.step? x.lot x.step = some z →
         v.rep.heldAs (.program z.spec.program z.spec.revision) = true ∨ b.le.active.presents z.spec.pair = true) →
       evaluateLoad v b = b.withLe { b.le with
         staged := ⟨.loading, some ⟨y.spec.program, y.spec.revision, y.spec.checksum, y.spec.blocks, 0, 0⟩⟩
         op := some ⟨.load, some .staged, v.cfg.blockTimeout⟩
         sent := b.le.sent ++ [.load .staged y.spec.program y.spec.revision 0 y.spec.blocks y.spec.checksum] } true)) ∧
  (∀ (s : State) (kind : OpKind) (x : Slot) (tm : Nat) (p : SlotProgram),
     s.finish.blocks.le.op = some ⟨kind, some x, tm⟩ → (kind = .load ∨ kind = .verify) →
     (s.finish.blocks.le.slot x).prog = some p →
     s.re.replica.heldAs (.program p.program p.revision) = false ∧
     wanted s.view s.finish.blocks (p.program, p.revision) = true)

/-- An automatic hold is kept pending in OFFLINE and FAULTED, dropped while its target is held or a HOLD on it stands or
is pending, lost while the Hold List is full, else enqueued with the next serial (R149, R154). Its third transmit fault
makes it pending (R154). JOIN and REJOIN into LISTENING put all pending holds through the checks again, oldest first,
the Insertion Watch's before the Dispatch Unit's, and none of them counting as pending in the check of another, by the
model's choice of log 19; a lone one that passes is enqueued (R154). -/
def Obligations.AutomaticHoldsAreChecked : Prop :=
  (∀ (v : View) (t : HoldTarget) (l : Level) (r : Reason) (b : Blocks), r ≠ .host →
     (acceptsFrames b.station = false →
       (r = .count → autoHold v t l r b =
         { b with du := { b.du with pendingHolds := b.du.pendingHolds ++ [⟨t, l, r⟩] } }) ∧
       (r ≠ .count → autoHold v t l r b =
         { b with iw := { b.iw with pendingHolds := b.iw.pendingHolds ++ [⟨t, l, r⟩] } })) ∧
     (acceptsFrames b.station = true → (v.rep.heldAs t = true ∨ ownHoldOn b t = true) → autoHold v t l r b = b) ∧
     (acceptsFrames b.station = true → v.rep.heldAs t = false → ownHoldOn b t = false → 32 ≤ v.rep.holds.length →
       autoHold v t l r b = raise (.holdLost t l r none) b) ∧
     (acceptsFrames b.station = true → v.rep.heldAs t = false → ownHoldOn b t = false → v.rep.holds.length < 32 →
       autoHold v t l r b = { b with
         cli := { b.cli with serial := nextSerial v b + 1 }
         lc := offerLc (internal (.hold (nextSerial v b) t l r) (if r = .count then .du else .iw)) b.lc })) ∧
  (∀ (s : State) (x : TxFrame) (e : SendEntry) (sn : BitVec 8) (t : HoldTarget) (l : Level) (r : Reason),
     s.blocks.lc.tx = some x → s.blocks.lc.queue.find? (fun y => y.inTx) = some e → 2 ≤ e.faults →
     e.body = .hold sn t l r → r ≠ .host →
     ∃ u, exec .transmitFault s = .next u ∧ u.blocks.station = .faulted ∧
       (r = .count → ⟨t, l, r⟩ ∈ u.blocks.du.pendingHolds) ∧ (r ≠ .count → ⟨t, l, r⟩ ∈ u.blocks.iw.pendingHolds)) ∧
  (∀ (v : View) (b : Blocks), retryPendingHolds v b =
     (b.iw.pendingHolds ++ b.du.pendingHolds).foldl (fun b p => autoHold v p.target p.level p.reason b)
       { b with iw := { b.iw with pendingHolds := [] }, du := { b.du with pendingHolds := [] } }) ∧
  (∀ (s : State) (c : Instr), s.TakesAtOnce → s.blocks.du.leaving = false →
     (c = .join ∧ s.blocks.station = .offline ∧ s.stationId ≠ 0 ∧ s.stationId ≠ 63 ∨
       c = .rejoin ∧ s.blocks.station = .faulted) →
     ∃ t, exec c s = .next t ∧ t.blocks.iw.pendingHolds = [] ∧ t.blocks.du.pendingHolds = [] ∧
       ∀ p, s.blocks.iw.pendingHolds ++ s.blocks.du.pendingHolds = [p] → s.re.replica.heldAs p.target = false →
         s.blocks.lc.standing (isHoldOn p.target) = false → s.re.replica.holds.length < 32 →
         ∃ sn, ∃ e ∈ t.blocks.lc.queue ++ t.blocks.lc.waiting, e.body = .hold sn p.target p.level p.reason)

/-- The release check of an owned COMPLETE lot, by the first of its cases, on its record or a fresh one: the COUNT hold,
once; nothing while suspended or covered; the SHIP, once; RELEASE WAITING, once while it waits (R163, R165, R166). The
checks run in ACTIVE, PARKED and ISOLATED alone, and leave a record for exactly the COMPLETE lots this station owns; so
does a heard state frame (R163, R164). That a fresh record has SHIP standing no also while an older own SHIP of the lot
still stands is the model's reading (log 26). -/
def Obligations.ReleaseCheckTestsTheLot : Prop :=
  (∀ (v : View) (b : Blocks) (l : LotRec) (R : ReleaseRec) (pre post : List ReleaseRec) (put : ReleaseRec → Blocks),
     (b.du.releases = pre ++ R :: post ∨ b.du.releases = pre ∧ post = [] ∧ R = ⟨l.lot, false, false, false⟩) →
     R.lot = l.lot → (∀ x ∈ pre ++ post, x.lot ≠ l.lot) → l.complete = true →
     (∀ R', put R' = { b with du := { b.du with releases := pre ++ R' :: post } }) →
     (l.lostAllowance < l.totalLost → checkOwned v l b =
       if R.countHoldRaised then put { R with waitingReported := false }
       else autoHold v (.lot l.lot) .quality .count
         (put { R with waitingReported := false, countHoldRaised := true })) ∧
     (l.totalLost ≤ l.lostAllowance → (l.suspended = true ∨ v.rep.coveredLot l = true) →
       checkOwned v l b = put { R with waitingReported := false }) ∧
     (l.totalLost ≤ l.lostAllowance → l.suspended = false → v.rep.coveredLot l = false →
       (l.holdHistory = false ∨ l.confirmed = true) →
       (R.shipStanding = true → checkOwned v l b = put { R with waitingReported := false }) ∧
       (R.shipStanding = false → ∀ y st kit e p f lo i, l.plan.getLast? = some y →
         y.state = .tallied st kit e p f lo i →
         checkOwned v l b = { put { R with waitingReported := false, shipStanding := true } with
           lc := if acceptsFrames b.station then offerLc (internal (.ship l.lot p) .du) b.lc else b.lc })) ∧
     (l.totalLost ≤ l.lostAllowance → l.suspended = false → v.rep.coveredLot l = false → l.holdHistory = true →
       l.confirmed = false → checkOwned v l b =
         if R.waitingReported then put R
         else raise .releaseWaiting (put { R with waitingReported := true }))) ∧
  (∀ (v : View) (b : Blocks), isWorking b.station = false → releaseChecks v b = b) ∧
  (∀ (v : View) (b : Blocks) (lot : Nat), isWorking b.station = true → rising (v.rep.lots.map LotRec.lot) = true →
     ((∃ R ∈ (releaseChecks v b).du.releases, R.lot = lot) ↔
       ∃ l, v.rep.lot? lot = some l ∧ l.complete = true ∧ l.releaseOwner = some v.id)) ∧
  (∀ (s : State) (r : Reception) (sender : Nat) (auth : Level) (body : FrameBody), s.Hearing r sender auth body →
     s.replicaInv → s.blocks.du.leaving = false →
     ∃ t, exec (.frameEnd r) s = .next t ∧ (isWorking t.blocks.station = true → ∀ lot,
       ((∃ R ∈ t.blocks.du.releases, R.lot = lot) ↔
         ∃ l, t.re.replica.lot? lot = some l ∧ l.complete = true ∧ l.releaseOwner = some t.stationId)))

/-! ### The Tester Line -/

/-- BLOCK_OK in sequence counts a block and restarts the block timer; BLOCK_BAD in sequence is answered with a LOAD
from the bad block while load retry is on and fewer than 2 retries are used (R120, R121); that its block count is 0 where
more blocks are done than expected is the model's choice (log 32). LOAD_END of a complete
image makes the slot LOADED, and sends its VERIFY at once while the pair is wanted, not held and the station not
OFFLINE (R120). -/
def Obligations.BlocksAndImagesAreTaken : Prop :=
  (∀ (s : State) (x : Slot) (sb tm : Nat) (p : SlotProgram), slotOf sb = some x →
     s.blocks.le.op = some ⟨.load, some x, tm⟩ → (s.blocks.le.slot x).prog = some p →
     exec (.blockOk sb p.done) s = .next (State.finish (s.withLe
       { s.blocks.le.put x ⟨(s.blocks.le.slot x).state, some { p with done := p.done + 1 }⟩ with
         op := some ⟨.load, some x, s.config.blockTimeout⟩ } false)) ∧
     (∀ cause, s.config.loadRetry = true → p.retries < 2 →
       exec (.blockBad sb p.done cause) s = .next (State.finish (s.withLe
         { s.blocks.le.put x ⟨(s.blocks.le.slot x).state, some { p with retries := p.retries + 1 }⟩ with
           op := some ⟨.load, some x, s.config.blockTimeout⟩
           sent := s.blocks.le.sent ++ [.load x p.program p.revision p.done (p.expected - p.done) p.checksum] } false)))) ∧
  (∀ (s : State) (x : Slot) (sb tm : Nat) (p : SlotProgram), slotOf sb = some x →
     s.blocks.le.op = some ⟨.load, some x, tm⟩ → (s.blocks.le.slot x).prog = some p → p.done = p.expected →
     exec (.loadEnd sb) s = .next (State.finish (s.withLe
       (if wanted s.view s.blocks (p.program, p.revision) ∧ ¬ s.re.replica.pairHeld (p.program, p.revision) ∧
           s.blocks.station ≠ .offline then
         { s.blocks.le.put x ⟨.verifying, some p⟩ with
           op := some ⟨.verify, some x, 5000⟩, sent := s.blocks.le.sent ++ [.verify x p.checksum] }
       else { s.blocks.le.put x ⟨.loaded, some p⟩ with op := none }) true)))

/-- What fails a LOAD or a VERIFY, and what it leaves: LOAD FAILED with its cause, and the pair on the Refusal List
(R120 to R124, R99); a LOAD END with blocks missing is SEQUENCE (R120). That a LOAD END with more blocks done than
expected is SEQUENCE too, and that the blocks not loaded are 0 wherever more are done than expected, are the model's
choices (log 32). -/
def Obligations.LoadsFail : Prop :=
  ∀ (s : State) (c : Instr) (x : Slot) (sb tm : Nat) (p : SlotProgram) (kind : OpKind) (cause : LoadFailedCause),
    s.blocks.du.leaving = false → slotOf sb = some x →
    s.blocks.le.op = some ⟨kind, some x, tm⟩ → (s.blocks.le.slot x).prog = some p →
    (kind = .load ∧ cause = .timeout ∧ c = .blockTimeout ∨
      kind = .load ∧ cause = .sequence ∧ (∃ n, n ≠ p.done ∧ (c = .blockOk sb n ∨ ∃ w, c = .blockBad sb n w)) ∨
      kind = .load ∧ cause = .sequence ∧ c = .loadEnd sb ∧ p.done ≠ p.expected ∨
      kind = .load ∧ (∃ w, cause = .block w ∧ c = .blockBad sb p.done w) ∧
        (s.config.loadRetry = false ∨ 2 ≤ p.retries) ∨
      kind = .verify ∧ cause = .verify ∧ (c = .verifyTimeout ∨ c = .verifyResult sb false)) →
    ∃ t, exec c s = .next t ∧
      t.blocks.du.refusals =
        (if s.blocks.du.refusals.contains (p.program, p.revision) then s.blocks.du.refusals
         else if s.blocks.du.refusals.length < 4 then s.blocks.du.refusals ++ [(p.program, p.revision)]
         else s.blocks.du.refusals.drop 1 ++ [(p.program, p.revision)]) ∧
      t.blocks.reported (.loadFailed p.program p.revision x cause (p.expected - p.done)
        (if p.done = 0 then none else some (p.done - 1)))

/-- VERIFY_RESULT match makes the slot VERIFIED and reports LOAD DONE; SWAP_DONE exchanges the two slot records whole;
PURGE_DONE empties its slot (R124 to R126). SWAP_TIMEOUT leaves both slots UNKNOWN, PURGE_TIMEOUT the purged one, with
TESTER PROTOCOL (R125, R126). A message that does not answer the operation in flight, or names another slot, or comes
while none is, is discarded with TESTER PROTOCOL UNEXPECTED, its type code and the slot it names (R128). During a PURGE
of the slot they name, BLOCK_OK, BLOCK_BAD, LOAD_END and VERIFY_RESULT are discarded in silence (R126, R128). That a
slot byte which is neither 1 nor 2, and names no slot (R183), is carried as received is the model's choice (log 33). -/
def Obligations.TesterOperationsEnd : Prop :=
  (∀ (s : State) (x : Slot) (sb tm : Nat), slotOf sb = some x →
     (∀ p, s.blocks.le.op = some ⟨.verify, some x, tm⟩ → (s.blocks.le.slot x).prog = some p →
       exec (.verifyResult sb true) s = .next (State.finish ((s.withLe
         { s.blocks.le.put x ⟨.verified, some p⟩ with op := none } true).raised
         (.loadDone p.program p.revision x)))) ∧
     (∀ o, s.blocks.le.op = some ⟨.swap, o, tm⟩ →
       exec .swapDone s = .next (State.finish (s.withLe
         { s.blocks.le with active := s.blocks.le.staged, staged := s.blocks.le.active, op := none } true))) ∧
     (s.blocks.le.op = some ⟨.purge, some x, tm⟩ →
       exec (.purgeDone sb) s = .next (State.finish (s.withLe
         { s.blocks.le.put x ⟨.empty, none⟩ with op := none } true)))) ∧
  (∀ (s : State) (tm : Nat),
     (∀ o, s.blocks.le.op = some ⟨.swap, o, tm⟩ →
       exec .swapTimeout s = .next (State.finish ((s.withLe
         { s.blocks.le with active := ⟨.unknown, none⟩, staged := ⟨.unknown, none⟩, op := none } true).raised
         (.testerProtocol none none .swapTimeout)))) ∧
     (∀ x, s.blocks.le.op = some ⟨.purge, some x, tm⟩ →
       exec .purgeTimeout s = .next (State.finish ((s.withLe
         { s.blocks.le.put x ⟨.unknown, none⟩ with op := none } true).raised
         (.testerProtocol none none .purgeTimeout))))) ∧
  (∀ (s : State) (sb n w : Nat) (m : Bool) (busy : OpKind → Prop),
     (∀ k, busy k ↔ ∃ x tm, slotOf sb = some x ∧ s.blocks.le.op = some ⟨k, some x, tm⟩) →
     (¬busy .load → ¬busy .purge →
       exec (.blockOk sb n) s = .next (s.raised (.testerProtocol (some 129) (some sb) .unexpected)).finish ∧
       exec (.blockBad sb n w) s = .next (s.raised (.testerProtocol (some 130) (some sb) .unexpected)).finish ∧
       exec (.loadEnd sb) s = .next (s.raised (.testerProtocol (some 131) (some sb) .unexpected)).finish) ∧
     (¬busy .verify → ¬busy .purge →
       exec (.verifyResult sb m) s = .next (s.raised (.testerProtocol (some 132) (some sb) .unexpected)).finish) ∧
     ((∀ x tm, s.blocks.le.op ≠ some ⟨.swap, x, tm⟩) →
       exec .swapDone s = .next (s.raised (.testerProtocol (some 133) none .unexpected)).finish) ∧
     (¬busy .purge →
       exec (.purgeDone sb) s = .next (s.raised (.testerProtocol (some 134) (some sb) .unexpected)).finish) ∧
     (busy .purge → exec (.blockOk sb n) s = .next s.finish ∧ exec (.blockBad sb n w) s = .next s.finish ∧
       exec (.loadEnd sb) s = .next s.finish ∧ exec (.verifyResult sb m) s = .next s.finish))

/-- Bytes of the Tester Line: a whole message with a matching check acts as its message; one whose check does not
match, with no sync byte in what follows, is discarded with BAD_FRAME; a partial one is discarded after 1 ms, with no
type where none has arrived, log 20 (12.3, R183). -/
def Obligations.TesterBytesAreRead : Prop :=
  ∀ (s : State) (type : Byte) (payload : List Byte), payload.length < 255 →
    (∀ m, s.blocks.le.rx = [] → testerMsgOf type.toNat payload = some m →
      exec (.testerMessageDiscard (0x5A :: byte (payload.length + 1) :: type :: payload
        ++ envelopeCrc (byte (payload.length + 1) :: type :: payload))) s
        = .next (State.finish { s with
            blocks := setTesterRx [] (Sys2Proof.Machine.finish s.view (deliver s.view m s.blocks)) })) ∧
    (∀ c0 c1 : Byte, s.blocks.le.rx = [] → [c0, c1] ≠ envelopeCrc (byte (payload.length + 1) :: type :: payload) →
      (∀ b ∈ byte (payload.length + 1) :: type :: payload ++ [c0, c1], b ≠ 0x5A) →
      exec (.testerMessageDiscard (0x5A :: byte (payload.length + 1) :: type :: payload ++ [c0, c1])) s
        = .next (s.raised (.testerProtocol (some type.toNat) none .badFrame)).finish) ∧
    (∀ rest, s.blocks.le.rx = 0x5A :: rest → (∀ b ∈ rest, b ≠ 0x5A) →
      exec .testerByteTimeout s = .next (State.finish ((s.withLe { s.blocks.le with rx := [] } false).raised
        (.testerProtocol (partialType (0x5A :: rest)) none .badFrame))))

/-! ### The handler and the insertion -/

/-- SEAT: in IDLE with the gate open GO is issued to the enabled set, or NO_SITE reported; with the gate closed the
mask waits under HALT; in IN TEST it is discarded (R133, R135, R136). -/
def Obligations.SeatIsAnswered : Prop :=
  ∀ (s : State) (m : SiteMask),
    (s.blocks.iw.insertion = .idle → s.blocks.iw.gate = true →
      enabledSet s.view s.blocks.iw (configuredMask s.view m) ≠ [] →
      exec (.seat m) s = .next (State.finish (s.withIw { s.blocks.iw with
        insertion := .inTest (maskOf (enabledSet s.view s.blocks.iw (configuredMask s.view m)))
          (s.config.insertionTimeout * 1000)
        go := true
        en := maskOf (enabledSet s.view s.blocks.iw (configuredMask s.view m)) }))) ∧
    (s.blocks.iw.insertion = .idle → s.blocks.iw.gate = true →
      enabledSet s.view s.blocks.iw (configuredMask s.view m) = [] →
      exec (.seat m) s = .next (s.raised (.noSite (configuredMask s.view m))).finish) ∧
    (s.blocks.iw.insertion = .idle → s.blocks.iw.gate = false →
      exec (.seat m) s = .next (State.finish (s.withIw { s.blocks.iw with
        insertion := .waitingGate (configuredMask s.view m), halt := true }))) ∧
    (∀ old, s.blocks.iw.insertion = .waitingGate old →
      exec (.seat m) s = .next (State.finish (s.withIw { s.blocks.iw with
        insertion := .waitingGate (configuredMask s.view m), halt := true }))) ∧
    (∀ e n, s.blocks.iw.insertion = .inTest e n → exec (.seat m) s = .next (s.raised .seatInTest).finish)

/-- VERDICT in IN TEST counts every unit of the enabled set once, as tested or lost, each tested one as a PASS or a
FAIL, and the insertion once; outside IN TEST it is discarded (R138). It takes the sites of the enabled set in ascending
order, each to its site record (R138, R140), to the Yield Window (R142) and to the trip counter (R143; limits met at or
above, and a window longer than a lowered size trimmed at the next result, log 44). With end pending the step ends at
it: the head is ENDING and the units left are lost (R144). INSERTION_TIMEOUT in IN TEST takes the units of the enabled
set as lost and counts the insertion; fails, window and trip counter stay (R139). The pass set is the one kept from the
step start (log 14), whatever units are counted in it (log 42); bit 0 of it names no bin (log 16). -/
def Obligations.InsertedUnitsAreCounted : Prop :=
  (∀ (s : State) (bins : BitVec 32),
     (∀ m n, s.blocks.iw.insertion = .inTest m n → s.blocks.iw.counters.endPending = false →
       s.blocks.du.leaving = false →
       ∃ t, exec (.verdict bins) s = .next t ∧
         t.blocks.iw.counters.tested + t.blocks.iw.counters.lost
           = s.blocks.iw.counters.tested + s.blocks.iw.counters.lost + (sitesOf m).length ∧
         t.blocks.iw.counters.pass + t.blocks.iw.counters.fail + s.blocks.iw.counters.tested
           = s.blocks.iw.counters.pass + s.blocks.iw.counters.fail + t.blocks.iw.counters.tested ∧
         t.blocks.iw.counters.lost
           = s.blocks.iw.counters.lost + ((sitesOf m).filter fun k => binOf bins k = 0).length ∧
         t.blocks.iw.counters.pass = s.blocks.iw.counters.pass
           + ((sitesOf m).filter fun k => inPassSet (passSet s.view s.blocks.iw.counters) (binOf bins k)).length ∧
         t.blocks.iw.counters.insertions = s.blocks.iw.counters.insertions + 1 ∧
         t.blocks.iw.counters.entered = s.blocks.iw.counters.entered) ∧
     (∀ m n, s.blocks.iw.insertion = .inTest m n →
       ∃ t u, exec (.verdict bins) s = .next t ∧
         u = takeUnits s.view (passSet s.view s.blocks.iw.counters) bins (sitesOf m) s.blocks ∧
         t.blocks.iw.sites = u.iw.sites ∧ t.blocks.iw.window = u.iw.window ∧ t.blocks.iw.trip = u.iw.trip) ∧
     (∀ m n h q, s.blocks.iw.insertion = .inTest m n → s.blocks.iw.counters.endPending = true →
       s.blocks.du.leaving = false → s.blocks.du.queue = h :: q → h.phase = .running → h.orphaned = false →
       s.blocks.iw.counters.lot = some h.lot → s.blocks.iw.counters.step = h.step →
       ∃ t h' q', exec (.verdict bins) s = .next t ∧ t.blocks.du.queue = h' :: q' ∧ h'.lot = h.lot ∧
         h'.step = h.step ∧ h'.phase = .ending ∧
         t.blocks.iw.counters.tested + t.blocks.iw.counters.lost
           = max t.blocks.iw.counters.entered
               (s.blocks.iw.counters.tested + s.blocks.iw.counters.lost + (sitesOf m).length) ∧
         t.blocks.iw.counters.entered = s.blocks.iw.counters.entered) ∧
     ((∀ m n, s.blocks.iw.insertion ≠ .inTest m n) →
       exec (.verdict bins) s = .next (s.raised (.testerProtocol (some 144) none .unexpected)).finish)) ∧
  (∀ (v : View) (pass : BinMask) (n bin fails : Nat) (b u : Blocks) (r : SiteRec), 1 ≤ n → n ≤ b.iw.sites.length →
     b.iw.site n = r → r.state = .enabled → 1 ≤ v.cfg.windowSize → u = takeUnit v pass n bin b →
     fails = (if bin ≠ 0 ∧ inPassSet pass bin = true then 0 else r.fails + 1) →
     u.iw.site n = (if v.cfg.failLimit ≤ fails then ⟨.masked, 0, r.masks + 1⟩ else ⟨.enabled, fails, r.masks⟩) ∧
     (∀ j, 1 ≤ j → j ≠ n → u.iw.site j = b.iw.site j) ∧
     (bin = 0 → u.iw.window = b.iw.window ∧ u.iw.trip = b.iw.trip) ∧
     (bin ≠ 0 →
       (∀ w, w = (b.iw.window ++ [if inPassSet pass bin = true then UnitResult.pass else UnitResult.fail]).drop
             (b.iw.window.length + 1 - v.cfg.windowSize) →
         u.iw.window =
           if w.length = v.cfg.windowSize ∧ v.cfg.windowFailLimit ≤ (w.filter fun x => x == UnitResult.fail).length then []
           else w) ∧
       u.iw.trip =
         if inPassSet v.cfg.tripBins bin = true then
           (if v.cfg.tripLimit ≤ b.iw.trip + 1 then 0 else b.iw.trip + 1)
         else b.iw.trip)) ∧
  (∀ (s : State) (m : SiteMask) (n : Nat), s.blocks.iw.insertion = .inTest m n →
     s.blocks.iw.counters.endPending = false → s.blocks.du.leaving = false →
     ∃ t, exec .insertionTimeout s = .next t ∧
       t.blocks.iw.counters = { s.blocks.iw.counters with
         lost := s.blocks.iw.counters.lost + (sitesOf m).length
         insertions := s.blocks.iw.counters.insertions + 1 } ∧
       t.blocks.iw.sites = s.blocks.iw.sites ∧ t.blocks.iw.window = s.blocks.iw.window ∧
       t.blocks.iw.trip = s.blocks.iw.trip ∧ (∀ x k, t.blocks.iw.insertion ≠ .inTest x k) ∧ t.re = s.re)

/-- SITEOFFn follows the site records and the site count (R131). -/
def Obligations.SiteOffFollowsTheSites : Prop :=
  ∀ (s : State) (n : Nat), 1 ≤ n → n ≤ 8 →
    (s.siteOff n = true ↔
      s.config.siteCount < n ∨ (s.blocks.iw.site n).state = .masked ∨ (s.blocks.iw.site n).state = .retired)

/-! ### The Cell Line -/

/-- Bytes of the Cell Line: a whole message with a matching check is its request; one whose check does not match,
with no sync byte in what follows, and a partial one after 1 ms, are discarded with a BAD_FRAME report (12.2, R172,
R174). -/
def Obligations.CellBytesAreRead : Prop :=
  ∀ (s : State) (type : Byte) (payload : List Byte), payload.length ≤ 2048 →
    (s.blocks.cli.rx = [] →
      exec (.cellLineMessage (0xC3 :: (beBytes 2 (payload.length + 1) ++ type :: payload)
        ++ envelopeCrc (beBytes 2 (payload.length + 1) ++ type :: payload))) s
        = .next (setCellRx [] (request (requestOf type payload) s))) ∧
    (∀ c0 c1 : Byte, s.blocks.cli.rx = [] →
      [c0, c1] ≠ envelopeCrc (beBytes 2 (payload.length + 1) ++ type :: payload) →
      (∀ b ∈ beBytes 2 (payload.length + 1) ++ type :: payload ++ [c0, c1], b ≠ 0xC3) →
      exec (.cellLineMessage (0xC3 :: (beBytes 2 (payload.length + 1) ++ type :: payload) ++ [c0, c1])) s
        = .next { s with blocks := reportDiscard .badFrame s.blocks }) ∧
    (∀ rest, s.blocks.cli.rx = 0xC3 :: rest → (∀ b ∈ rest, b ≠ 0xC3) →
      exec .cellByteTimeout s
        = .next { s with blocks := reportDiscard .badFrame (setCli { s.blocks.cli with rx := [] } s.blocks) })

/-- A request that comes while a response waits or a reset is awaited joins the Request FIFO; with 4 held it is
discarded with an OVERRUN report, listed while fewer than 4 reports are held, else counted (R173, R174).
CELL_LINE_TRANSMIT takes up the response, else the oldest discard report, else the oldest notice; with nothing to send
it does nothing (R174). When the response leaves its slot the oldest request held is taken: acted upon and answered; a
lone one as if it came then (R173). That CELL_LINE_TRANSMIT takes up the next discard report or notice also while a
reset is awaited whose OK has been taken up, when R174 and R178 have the transmitter busy, is the model's choice (log
21). -/
def Obligations.RequestsWaitAndTheTransmitterSends : Prop :=
  (∀ (s : State) (c : Instr) (r : Request), carried c = some r →
     (s.blocks.cli.resp.isSome = true ∨ s.blocks.cli.resetAwaited = true) →
     exec c s = .next (State.finish (s.withCli
       (if s.blocks.cli.fifo.length < 4 then { s.blocks.cli with fifo := s.blocks.cli.fifo ++ [r] }
        else if s.blocks.cli.discards.length < 4 then
          { s.blocks.cli with discards := s.blocks.cli.discards ++ [.overrun r.type] }
        else { s.blocks.cli with unreported := min 65535 (s.blocks.cli.unreported + 1) })))) ∧
  (∀ s : State, (s.blocks.cli.fifo = [] ∨ s.blocks.cli.resetAwaited = true) →
     (∀ r, s.blocks.cli.resp = some r → exec .cellLineTransmit s =
         .next (State.finish (s.withCli { s.blocks.cli with tx := some (.response r), resp := none }))) ∧
     (∀ d ds, s.blocks.cli.resp = none → s.blocks.cli.discards = d :: ds →
       exec .cellLineTransmit s =
         .next (State.finish (s.withCli { s.blocks.cli with tx := some (.discard d), discards := ds }))) ∧
     (∀ n ns, s.blocks.cli.resp = none → s.blocks.cli.discards = [] → s.blocks.cli.notices = n :: ns →
       exec .cellLineTransmit s =
         .next (State.finish (s.withCli { s.blocks.cli with tx := some (.notice n), notices := ns }))) ∧
     (s.blocks.cli.resp = none → s.blocks.cli.discards = [] → s.blocks.cli.notices = [] →
       exec .cellLineTransmit s = .next s)) ∧
  (∀ (s u : State) (x : Response) (r : Request) (rest : List Request),
     s.blocks.cli.resp = some x → s.blocks.cli.fifo = r :: rest → s.blocks.cli.resetAwaited = false →
     u = s.withCli { s.blocks.cli with tx := some (.response x), resp := none, fifo := rest } →
     (∀ a w, handle r { u with blocks := wake u.view u.blocks } = (a, w) →
       exec .cellLineTransmit s = .next (State.finish (w.respond r.type a.code a.index a.content))) ∧
     (∀ c, rest = [] → carried c = some r → exec .cellLineTransmit s = exec c u))

/-- A PARKED station that takes a request is ACTIVE, with its evaluations made, before it acts on the request (R33). -/
def Obligations.RequestWakesTheStation : Prop :=
  ∀ (s : State) (c : Instr) (r : Request), carried c = some r →
    s.blocks.cli.fifo = [] → s.blocks.cli.resp = none → s.blocks.cli.resetAwaited = false →
    s.blocks.station = .parked → s.blocks.pu.parkTimer = none →
    (settle s.view (unpark s.view s.blocks)).station = .active ∧
    exec c s = exec c { s with blocks := settle s.view (unpark s.view s.blocks) }

/-! ### Requests -/

/-- READ_LOT (R179). READ_HOLDS, READ_KITS, READ_PEERS, READ_QUEUE, READ_SITES and READ_SLOTS report what they name
and change nothing (R179). STATUS reports the station and clears the notices-lost flag and the discards-unreported
count after copying them; RESET is answered OK and its reset awaited; a type that names no request is answered
UNKNOWN_REQUEST (R173, R178, R179). -/
def Obligations.ReportsAndResetAreAnswered : Prop :=
  (∀ (s : State) (lot : Nat), s.TakesAtOnce →
     (exec (.readLot 0) s = .next (State.finish (s.taking.respond 7 .ok 0
       (.lotList (s.re.replica.lots.map LotRec.lot) s.re.replica.ring)))) ∧
     (lot ≠ 0 → ∀ l, s.re.replica.lot? lot = some l →
       exec (.readLot lot) s = .next (State.finish (s.taking.respond 7 .ok 0
         (.lot l (s.blocks.du.releases.find? fun r => r.lot == lot))))) ∧
     (lot ≠ 0 → s.re.replica.lot? lot = none → lot ∈ s.re.replica.ring →
       exec (.readLot lot) s = .next (State.finish (s.taking.respond 7 .ok 0 (.shipped lot)))) ∧
     (lot ≠ 0 → s.re.replica.lot? lot = none → lot ∉ s.re.replica.ring →
       exec (.readLot lot) s = .next (s.taking.respondCode 7 .notFound).finish)) ∧
  (∀ s : State, s.TakesAtOnce →
     exec .readHolds s = .next (State.finish (s.taking.respond 8 .ok 0
       (.holds s.re.replica.holds s.blocks.cli.serial))) ∧
     exec .readKits s = .next (State.finish (s.taking.respond 9 .ok 0
       (.kits s.re.replica.kits s.blocks.hr.fitted s.blocks.hr.band s.blocks.hr.stable s.blocks.hr.request
         s.blocks.hr.gives))) ∧
     exec .readPeers s = .next (State.finish (s.taking.respond 10 .ok 0
       (.peers ((List.range 62).map fun i => s.blocks.pu.peer (i + 1))))) ∧
     exec .readQueue s = .next (State.finish (s.taking.respond 11 .ok 0
       (.queue s.blocks.du.queue s.blocks.du.refusals s.blocks.du.timers.length))) ∧
     exec .readSites s = .next (State.finish (s.taking.respond 12 .ok 0
       (.sites s.blocks.iw.sites s.blocks.iw.counters s.blocks.iw.window s.blocks.iw.trip))) ∧
     exec .readSlots s = .next (State.finish (s.taking.respond 13 .ok 0
       (.slots s.blocks.le.active s.blocks.le.staged s.blocks.le.op)))) ∧
  (∀ (s : State) (type : Byte) (payload : List Byte), s.TakesAtOnce →
     exec .status s = .next (State.finish (State.respond
       (s.taking.withCli { s.blocks.cli with noticesLost := false, unreported := 0 })
       6 .ok 0 (.status
         { station := s.blocks.station, stationId := s.stationId, resetCause := s.blocks.cli.resetCause
           config := s.config, count := s.re.count, digest := s.re.digest, junk := s.blocks.lc.junk
           sendEntries := s.blocks.lc.queue.length
           hostShare := (s.blocks.lc.queue.filter fun e => e.host).length
           phase := s.blocks.cu.phase, attempts := s.blocks.cu.attempts, serving := s.blocks.cu.session.isSome
           leaving := s.blocks.du.leaving, insertion := s.blocks.iw.insertion, gate := s.blocks.iw.gate
           noticesLost := s.blocks.cli.noticesLost, unreported := s.blocks.cli.unreported }))) ∧
     exec .reset s = .next (State.finish (State.respondCode
       (s.taking.withCli { s.blocks.cli with resetAwaited := true }) 5 .ok)) ∧
     ((type.toNat = 0 ∨ 31 < type.toNat) →
       exec (.unknownRequest type payload) s = .next (s.taking.respondCode type.toNat .unknownRequest).finish))

/-- CONFIGURE: BAD_STATE outside OFFLINE, BAD_VALUE with the first field out of range, else the whole record, OPERATOR,
no and off coded 0 by log 16 (R176, R181). That the results, consecutive fails and trip count held stay as they are
where a size or limit is lowered below them is the model's choice (log 44). -/
def Obligations.ConfigureSetsTheRecord : Prop :=
  ∀ (s : State) (f : ConfigFields), s.TakesAtOnce →
    (s.blocks.station ≠ .offline → exec (.configure f) s = .next (s.taking.respondCode 1 .badState).finish) ∧
    (∀ i, s.blocks.station = .offline → firstBad (configChecks f) = some i →
      exec (.configure f) s = .next (s.taking.respondBad 1 i).finish) ∧
    (s.blocks.station = .offline → firstBad (configChecks f) = none →
      exec (.configure f) s = .next (State.finish (State.respondCode { s.taking with config :=
        { authority := if f.authority = 1 then .quality else .operator, reachable := f.reachable
          siteCount := f.siteCount, queueLimit := f.queueLimit, beaconInterval := f.beaconInterval
          bidUnit := f.bidUnit, parkTimeout := f.parkTimeout, loadRetry := f.loadRetry == 1
          blockTimeout := f.blockTimeout, attemptLimit := f.attemptLimit, failLimit := f.failLimit
          windowSize := f.windowSize, windowFailLimit := f.windowFailLimit, tripBins := f.tripBins
          tripLimit := f.tripLimit, insertionTimeout := f.insertionTimeout
          keepOnSoftReset := f.keepOnSoftReset == 1 } } 1 .ok)))

/-- JOIN from OFFLINE with an ID of 1 to 62 takes the station to LISTENING for 2.5 s; REJOIN takes a FAULTED station
there and an ISOLATED one into a catch-up; each is refused elsewhere (R21, R35). -/
def Obligations.JoinAndRejoin : Prop :=
  ∀ s : State, s.TakesAtOnce → s.blocks.du.leaving = false →
    (s.blocks.station ≠ .offline → exec .join s = .next (s.taking.respondCode 2 .badState).finish) ∧
    (s.blocks.station = .offline → (s.stationId = 0 ∨ s.stationId = 63) →
      exec .join s = .next (s.taking.respondCode 2 .badId).finish) ∧
    (∀ c, (c = .join ∧ s.blocks.station = .offline ∧ s.stationId ≠ 0 ∧ s.stationId ≠ 63 ∨
        c = .rejoin ∧ s.blocks.station = .faulted) →
      ∃ t, exec c s = .next t ∧ t.blocks.station = .listening ∧ t.blocks.pu.listenTimer = some 2500 ∧
        t.blocks.pu.beaconTimer = some s.config.beaconInterval ∧ t.blocks.pu.conflictRaised = false ∧
        t.re = s.re ∧ t.blocks.cli.resp = some ⟨if c = .join then 2 else 4, .ok, 0, .none⟩) ∧
    (∀ ref, s.blocks.station = .isolated → chooseReference s.blocks = some ref →
      ∃ t, exec .rejoin s = .next t ∧ t.blocks.station = .joining ∧ t.blocks.cu.phase = .requesting ∧
        t.blocks.cu.reference = some ref ∧ t.blocks.cu.attempts = 0 ∧ t.re = s.re ∧
        t.blocks.cli.resp = some ⟨4, .ok, 0, .none⟩) ∧
    (s.blocks.station ≠ .isolated → s.blocks.station ≠ .faulted →
      exec .rejoin s = .next (s.taking.respondCode 4 .badState).finish)

/-- LEAVE: refused where the station does not work, runs a step or is leaving; with no entry to cede it completes at
once, in OFFLINE, with an empty Peer Table and Send Queue, and LEFT (R18, R34); with an own BID in transmission it is in
progress, and it completes when that BID is heard without effect (R34); with entries to cede it is in progress, and each
has cede cause LEAVE (R34, R94, R101). At the end of a command it is complete once no entry owes a CEDE and no
own BID is in transmission (R34, log 38), and the station is then in OFFLINE with an empty Dispatch Queue and no LOAD or
VERIFY in flight for a program of a slot (R126, R129). -/
def Obligations.LeaveTakesTheStationOff : Prop :=
  (∀ s : State, s.TakesAtOnce →
    (isWorking s.blocks.station = false → exec .leave s = .next (s.taking.respondCode 3 .badState).finish) ∧
    (isWorking s.blocks.station = true → (queueRuns s.view s.blocks = true ∨ s.blocks.iw.inTest = true) →
      exec .leave s = .next (s.taking.respondCode 3 .stepRunning).finish) ∧
    (isWorking s.blocks.station = true → queueRuns s.view s.blocks = false → s.blocks.iw.inTest = false →
      s.blocks.du.leaving = true → exec .leave s = .next (s.taking.respondCode 3 .badState).finish) ∧
    (isWorking s.blocks.station = true → s.blocks.iw.inTest = false → s.blocks.du.leaving = false →
      s.blocks.du.queue = [] → s.blocks.lc.bidInTx = false →
      ∃ t, exec .leave s = .next t ∧ t.blocks.station = .offline ∧ t.blocks.pu.peers = [] ∧
        t.blocks.lc.queue = [] ∧ t.blocks.lc.waiting = [] ∧ t.blocks.cu = .reset ∧ t.blocks.du.leaving = false ∧
        t.blocks.du.releases = [] ∧ t.blocks.hr.fitted = s.blocks.hr.fitted ∧ t.re = s.re ∧
        t.blocks.cli.resp = some ⟨3, .ok, 0, .none⟩ ∧ t.blocks.reported .left) ∧
    (isWorking s.blocks.station = true → s.blocks.iw.inTest = false → s.blocks.du.leaving = false →
      s.blocks.du.queue = [] → s.blocks.lc.bidInTx = true →
      ∃ t, exec .leave s = .next t ∧ t.blocks.station = s.blocks.station ∧ t.blocks.du.leaving = true ∧
        t.blocks.du.queue = [] ∧ t.blocks.lc.bidInTx = true ∧ t.re = s.re ∧
        t.blocks.cli.resp = some ⟨3, .ok, 0, .none⟩) ∧
    (isWorking s.blocks.station = true → queueRuns s.view s.blocks = false → s.blocks.iw.inTest = false →
      s.blocks.du.leaving = false → s.blocks.du.queue ≠ [] → (∀ e ∈ s.blocks.du.queue, beforeRun e.phase = true) →
      ∃ t, exec .leave s = .next t ∧ t.blocks.station = s.blocks.station ∧ t.blocks.du.leaving = true ∧
        t.blocks.steps = s.blocks.steps ∧ (∀ e ∈ t.blocks.du.queue, e.cede = some .leave) ∧ t.re = s.re ∧
        t.blocks.cli.resp = some ⟨3, .ok, 0, .none⟩)) ∧
  (∀ s : State, s.finish.blocks.du.leaving = true →
    (∃ e ∈ s.finish.blocks.du.queue, e.cede.isSome = true) ∨ s.finish.blocks.lc.bidInTx = true) ∧
  (∀ (s : State) (auth : Level) (lot k : Nat), s.blocks.du.leaving = true → s.blocks.du.queue = [] →
    isWorking s.blocks.station = true → s.Hearing .own s.stationId auth (.bid lot k) →
    takesEffect s.re.replica auth s.stationId (.bid lot k) = false →
    ∃ t, exec (.frameEnd .own) s = .next t ∧ t.blocks.station = .offline ∧ t.blocks.du.leaving = false) ∧
  (∀ s : State, s.blocks.du.leaving = true → s.finish.blocks.du.leaving = false →
    s.finish.blocks.station = .offline ∧ s.finish.blocks.du.queue = [] ∧
    ∀ op slot, s.finish.blocks.le.op = some op → op.slot = some slot → (s.finish.blocks.le.slot slot).pair? ≠ none →
      op.kind = .swap ∨ op.kind = .purge)

/-- POST_LOT, by the first of its cases (R78, R181). WITHDRAW_LOT and RESUME_LOT, by the first of their cases (R97,
R98). That a POST_LOT is BAD_VALUE for a pass-bin set with bit 0 alone, and not for one with bit 0 beside another, is the
model's choice (log 16). -/
def Obligations.LotRequestsAreAnswered : Prop :=
  (∀ (s : State) (f : LotFields), s.TakesAtOnce → exec (.postLot f) s = .next (State.finish
     (if isMember s.blocks.station = false then s.taking.respondCode 14 .badState
      else match firstBad (postChecks f) with
       | some i => s.taking.respondBad 14 i
       | none =>
         if (s.re.replica.lot? f.lot).isSome then s.taking.respondCode 14 .duplicate
         else if 64 ≤ s.re.replica.lots.length then s.taking.respondCode 14 .floorFull
         else if s.blocks.lc.hostRoom = false then s.taking.respondCode 14 .queueFull
         else (s.taking.enqueue (.post ⟨f.lot, f.device, f.posted, f.lostAllowance, f.steps.map fun x =>
           ⟨x.program, x.revision, x.blocks, x.checksum, (bandOf x.band).getD .ambient, x.family, x.passBins⟩⟩)
           .du).respondCode 14 .ok))) ∧
  (∀ (s : State) (lot : Nat), s.TakesAtOnce →
     exec (.withdrawLot lot) s = .next (State.finish
       (if isMember s.blocks.station = false then s.taking.respondCode 15 .badState
        else match s.re.replica.lot? lot with
         | none => s.taking.respondCode 15 .notFound
         | some l =>
           if l.anyRunning then s.taking.respondCode 15 .stepRunning
           else if s.blocks.lc.hostRoom = false then s.taking.respondCode 15 .queueFull
           else (s.taking.enqueue (.withdraw lot) .du).respondCode 15 .ok)) ∧
     exec (.resumeLot lot) s = .next (State.finish
       (if isMember s.blocks.station = false then s.taking.respondCode 16 .badState
        else if (s.re.replica.lot? lot).isNone then s.taking.respondCode 16 .notFound
        else if s.blocks.lc.hostRoom = false then s.taking.respondCode 16 .queueFull
        else (s.taking.enqueue (.resume lot) .du).respondCode 16 .ok)))

/-- CEDE, by the first of its cases (R94, R96); a READY head's queued STEP START is withdrawn and its evaluation due
(R87, R91, R94). CLEAR_REFUSALS empties the Refusal List, and an evaluation is due (R100). After an evaluation of a queue
that names no step twice (R87) every entry before its run that a hold covers, with the fitted kit for the head in PREPARING or READY and the kit of R80 for an
entry in WON, has a cede cause, none that no hold covers has the cause HOLD, and the CEDE of each that has a cause stands
where frames are accepted (R94, R95). R83 lists neither a cede cause nor a change of an empty list: that an evaluation is
due on a CEDE for a READY head, and on a CLEAR_REFUSALS with an empty Refusal List, is the model's choice (log 63). So is
that a head which resumes at an evaluation is tested with the fitted kit at that same one (log 64), and that an entry
whose own CEDE has been heard, which the first of these leaves out, owes no second one (log 59). -/
def Obligations.CedeAndClearRefusals : Prop :=
  (∀ (s : State) (lot k : Nat), s.TakesAtOnce →
     (isWorking s.blocks.station = false → exec (.cede lot k) s = .next (s.taking.respondCode 17 .badState).finish) ∧
     (isWorking s.blocks.station = true → s.blocks.du.entry? lot k = none →
       exec (.cede lot k) s = .next (s.taking.respondCode 17 .notFound).finish) ∧
     (∀ e, isWorking s.blocks.station = true → s.blocks.du.entry? lot k = some e →
       ((e.phase = .running ∨ e.phase = .ending) →
         exec (.cede lot k) s = .next (s.taking.respondCode 17 .stepRunning).finish) ∧
       (beforeRun e.phase = true → (e.cede.isSome ∨ s.blocks.lc.standing (· == .cede lot k)) →
         exec (.cede lot k) s = .next (State.finish (State.respondCode
           { s.taking with
             blocks := dueIfReady e (updateEntry lot k (fun x => { x with cede := some .host }) s.taking.blocks) }
           17 .ok))) ∧
       (beforeRun e.phase = true → e.cede = none → s.blocks.lc.standing (· == .cede lot k) = false →
         s.blocks.lc.hostRoom = false →
         exec (.cede lot k) s = .next (s.taking.respondCode 17 .queueFull).finish) ∧
       ((e.phase = .won ∨ e.phase = .preparing) → e.cede = none → s.blocks.lc.standing (· == .cede lot k) = false →
         s.blocks.lc.hostRoom = true →
         exec (.cede lot k) s = .next (State.finish (State.respondCode (State.enqueue
           { s.taking with blocks := updateEntry lot k (fun x => { x with cede := some .host }) s.taking.blocks }
           (.cede lot k) .du) 17 .ok))) ∧
       (e.phase = .ready → e.cede = none → s.blocks.lc.standing (· == .cede lot k) = false →
         s.blocks.lc.hostRoom = true →
         exec (.cede lot k) s = .next (State.finish (State.respondCode (State.enqueue
           { s.taking with
             blocks := markDue (withdrawAll (isStartOf lot k) <|
               updateEntry lot k (fun x => { x with cede := some .host }) s.taking.blocks) }
           (.cede lot k) .du) 17 .ok))))) ∧
  (∀ s : State, s.TakesAtOnce → exec .clearRefusals s = .next (State.finish (State.respondCode
     { s.taking with blocks := { s.taking.blocks with
         du := { s.blocks.du with refusals := [], evalDue := true } } } 18 .ok))) ∧
  (∀ (v : View) (b : Blocks) (e : QueueEntry) (l : LotRec) (x : StepRec) (kit : Option Nat), b.steps.Nodup →
     e ∈ (evaluateDispatch v b).du.queue → beforeRun e.phase = true →
     v.rep.lot? e.lot = some l → l.step? e.step = some x →
     kit = (if e.phase = .won then kitFor v b.hr x.spec.family else b.hr.fitted) →
     (v.rep.coveredStep l x.spec v.id kit = true → e.left ≠ some .ceded → e.cede.isSome = true) ∧
     (v.rep.coveredStep l x.spec v.id kit = false → e.cede ≠ some .hold) ∧
     (e.cede.isSome = true → acceptsFrames b.station = true →
       (evaluateDispatch v b).lc.standing (· == .cede e.lot e.step) = true))

/-- RELEASE_CONFIRM: refused for a lot that is absent, not COMPLETE or not owned; else release confirmed becomes yes
where it is present, and nothing of the floor state changes (R42, R167). -/
def Obligations.ReleaseConfirmMarksTheLot : Prop :=
  ∀ (s : State) (lot : Nat), s.TakesAtOnce → s.blocks.du.leaving = false →
    (s.re.replica.lot? lot = none →
      exec (.releaseConfirm lot) s = .next (s.taking.respondCode 19 .notFound).finish) ∧
    (∀ l, s.re.replica.lot? lot = some l →
      (l.complete = false → exec (.releaseConfirm lot) s = .next (s.taking.respondCode 19 .notComplete).finish) ∧
      (l.complete = true → l.releaseOwner ≠ some s.stationId →
        exec (.releaseConfirm lot) s = .next (s.taking.respondCode 19 .notOwner).finish) ∧
      (l.complete = true → l.releaseOwner = some s.stationId →
        ∃ t, exec (.releaseConfirm lot) s = .next t ∧ t.blocks.cli.resp = some ⟨19, .ok, 0, .none⟩ ∧
          t.re.count = s.re.count ∧ t.re.digest = s.re.digest ∧
          t.re.replica.holds = s.re.replica.holds ∧ t.re.replica.kits = s.re.replica.kits ∧
          t.re.replica.ring = s.re.replica.ring ∧
          t.re.replica.lot? lot = some { l with confirmed := l.holdHistory || l.confirmed } ∧
          ∀ n, n ≠ lot → t.re.replica.lot? n = s.re.replica.lot? n))

/-- PLACE_HOLD, by the first of its cases; the accepted hold takes the next free serial; a STATION target is refused for
0 and 63 alone (R149, R151). LIFT_HOLD, by the first of its cases (R156). That a LIFT_HOLD of a hold ID which two
entries bear is answered by the level of the older one is the model's choice (log 25); so is that the bytes of a target
which 12.1 gives as zero are ignored (log 17). -/
def Obligations.HoldRequestsAreAnswered : Prop :=
  (∀ (s : State) (scope level : Nat) (tb : BitVec 32), s.TakesAtOnce → exec (.placeHold scope tb level) s = .next
     (State.finish
       (if isWorking s.blocks.station = false then s.taking.respondCode 20 .badState
        else match holdTargetOf scope tb with
         | none => s.taking.respondBad 20 1
         | some target =>
           if targetInRange target = false then s.taking.respondBad 20 2
           else match levelOf level with
             | none => s.taking.respondBad 20 3
             | some lv =>
               if lv = .quality ∧ s.config.authority = .operator then s.taking.respondCode 20 .notAuthorized
               else if s.re.replica.heldAs target || ownHoldOn s.blocks target then s.taking.respondCode 20 .alreadyHeld
               else if 32 ≤ s.re.replica.holds.length then s.taking.respondCode 20 .holdFull
               else if s.blocks.lc.hostRoom = false then s.taking.respondCode 20 .queueFull
               else State.respondCode (State.enqueue
                 (s.taking.withCli { s.blocks.cli with serial := nextSerial s.view s.blocks + 1 })
                 (.hold (nextSerial s.view s.blocks) target lv .host) .cli) 20 .ok))) ∧
  (∀ (s : State) (origin serial : Nat), s.TakesAtOnce → exec (.liftHold origin serial) s = .next (State.finish
     (if isMember s.blocks.station = false then s.taking.respondCode 21 .badState
      else if origin = 0 ∨ 62 < origin then s.taking.respondBad 21 1
      else match s.re.replica.hold? origin (BitVec.ofNat 8 serial) with
       | none => s.taking.respondCode 21 .notFound
       | some h =>
         if h.level = .quality ∧ s.config.authority = .operator then s.taking.respondCode 21 .notAuthorized
         else if s.blocks.lc.hostRoom = false then s.taking.respondCode 21 .queueFull
         else (s.taking.enqueue (.lift origin (BitVec.ofNat 8 serial)) .cli).respondCode 21 .ok)))

/-- KIT_ADD, KIT_FOUND, KIT_SERVICED and KIT_RETIRE, by the first of their cases (R108). -/
def Obligations.KitRequestsAreAnswered : Prop :=
  ∀ (s : State) (k family limit : Nat), s.TakesAtOnce →
    exec (.kitAdd k family limit) s = .next (State.finish
      (if isMember s.blocks.station = false then s.taking.respondCode 22 .badState
       else if k = 0 then s.taking.respondBad 22 1
       else if family = 0 then s.taking.respondBad 22 2
       else if limit = 0 then s.taking.respondBad 22 3
       else if (s.re.replica.kit? k).isSome then s.taking.respondCode 22 .duplicate
       else if 24 ≤ s.re.replica.kits.length then s.taking.respondCode 22 .floorFull
       else if s.blocks.lc.hostRoom = false then s.taking.respondCode 22 .queueFull
       else (s.taking.enqueue (.kitAdd k family limit) .hr).respondCode 22 .ok)) ∧
    (∀ c type body fits,
      (c = .kitFound k ∧ type = 23 ∧ body = .kitFound k ∧ fits = KitRec.isStranded ∨
        c = .kitServiced k ∧ type = 24 ∧ body = .kitServiced k ∧ fits = KitRec.onShelf ∨
        c = .kitRetire k ∧ type = 25 ∧ body = .kitRetire k ∧ fits = KitRec.onShelf) →
      exec c s = .next (State.finish
        (if isMember s.blocks.station = false then s.taking.respondCode type .badState
         else if k = 0 then s.taking.respondBad type 1
         else match s.re.replica.kit? k with
          | none => s.taking.respondCode type .notFound
          | some rec =>
            if fits rec = false then s.taking.respondCode type .badState
            else if s.blocks.lc.hostRoom = false then s.taking.respondCode type .queueFull
            else (s.taking.enqueue body .hr).respondCode type .ok)))

/-- KIT_FITTED and KIT_REMOVED, refused or taken (R106, R107). A kit request is ended by a usable fitted kit, its queued
KIT TAKE withdrawn (R105), and moved to REMOVAL with KIT NEEDED by another (R106). A removed kit that is AT here joins
the give list, the fitted one or not, with its KIT GIVE where frames are accepted; a request in REMOVAL then chooses
again once nothing is fitted (R107). That KIT_FITTED for the kit already fitted leaves a request as it is, and that a
request in FITTING keeps a candidate which KIT_REMOVED names, is the model's choice (log 54); so is that the queued KIT
TAKE of a request moved from TAKING to REMOVAL is left standing (log 35). -/
def Obligations.FittedKitIsRecorded : Prop :=
  ∀ (s : State) (k : Nat), s.TakesAtOnce →
    (isWorking s.blocks.station = false ∨ kitAtHere s.view k = false ∨
        s.blocks.lc.inTransmission (.kitGive k) = true ∨ (∃ j, s.blocks.hr.fitted = some j ∧ j ≠ k) →
      exec (.kitFitted k) s = .next (s.taking.respondCode 26 .badState).finish) ∧
    (isWorking s.blocks.station = true → kitAtHere s.view k = true →
      s.blocks.lc.inTransmission (.kitGive k) = false → s.blocks.hr.fitted = some k →
      exec (.kitFitted k) s = .next (State.finish (State.respondCode
        (s.taking.withIw { s.blocks.iw with trip := 0 }) 26 .ok))) ∧
    (isWorking s.blocks.station = true → kitAtHere s.view k = true →
      s.blocks.lc.inTransmission (.kitGive k) = false → s.blocks.hr.fitted = none →
      (s.blocks.hr.request = none →
        exec (.kitFitted k) s = .next (State.finish (State.respondCode (s.taking.withFitted k) 26 .ok))) ∧
      (∀ r, s.blocks.hr.request = some r →
        ((usableFitted s.view { s.blocks.hr with fitted := some k } r.family).isSome = true →
          exec (.kitFitted k) s = .next (State.finish (State.respondCode
            (((s.taking.withFitted k).withRequest none).withLc
              (withdrawLc isKitTake (s.taking.withFitted k).blocks.lc)) 26 .ok))) ∧
        ((usableFitted s.view { s.blocks.hr with fitted := some k } r.family).isSome = false →
          exec (.kitFitted k) s = .next (State.finish (State.respondCode
            (((s.taking.withFitted k).withRequest (some { r with phase := .removal, candidate := none })).raised
              (.kitNeeded r.lot r.step r.family (some k) none)) 26 .ok))))) ∧
    (s.blocks.station = .offline → exec (.kitRemoved k) s = .next (s.taking.respondCode 27 .badState).finish) ∧
    (s.blocks.station ≠ .offline → s.blocks.hr.fitted ≠ some k → kitAtHere s.view k = false →
      exec (.kitRemoved k) s = .next (s.taking.respondCode 27 .notFound).finish) ∧
    (s.blocks.station ≠ .offline → s.blocks.hr.fitted = some k → s.blocks.du.headInRun = true →
      exec (.kitRemoved k) s = .next (s.taking.respondCode 27 .stepRunning).finish) ∧
    (∀ u w : State, s.blocks.station ≠ .offline →
      (s.blocks.hr.fitted = some k ∧ s.blocks.du.headInRun = false ∧ u = s.taking.withHr { s.blocks.hr with fitted := none } ∨
        s.blocks.hr.fitted ≠ some k ∧ kitAtHere s.view k = true ∧ u = s.taking) →
      w = (if kitAtHere s.view k then u.withGive k else u) →
      ((∀ r, s.blocks.hr.request = some r → r.phase = .removal → w.blocks.hr.fitted ≠ none) →
        exec (.kitRemoved k) s = .next (State.finish (w.respondCode 27 .ok))) ∧
      (∀ r, s.blocks.hr.request = some r → r.phase = .removal → w.blocks.hr.fitted = none →
        exec (.kitRemoved k) s = .next (State.finish
          (State.respondCode { w with blocks := chooseKit s.view r w.blocks } 27 .ok))))

/-- BAND_CHANGE, by the first of its cases (R111). BAND_READY, by the first of its cases, in every station state (R112).
That an evaluation is due also where a BAND_CHANGE names the band of a band state already CHANGING is the model's choice
(log 63). -/
def Obligations.BandRequestsAreTaken : Prop :=
  (∀ (s : State) (code : Nat), s.TakesAtOnce → exec (.bandChange code) s = .next (State.finish
     (match bandOf code with
       | none => s.taking.respondBad 28 1
       | some x =>
         if s.config.reachable.getLsbD (code - 1) = false then s.taking.respondBad 28 1
         else if s.blocks.du.headInRun then s.taking.respondCode 28 .stepRunning
         else State.respondCode (s.taking.withHr { s.blocks.hr with band := x, stable := false }) 28 .ok))) ∧
  (∀ (s : State) (code : Nat), s.TakesAtOnce → exec (.bandReady code) s = .next (State.finish
     (if bandOf code ≠ some s.blocks.hr.band then s.taking.respondBad 29 1
      else if s.blocks.hr.stable then s.taking.respondCode 29 .ok
      else State.respondCode (s.taking.withHr { s.blocks.hr with stable := true }) 29 .ok)))

/-- END_STEP: refused where the station does not work or the head does not run the step; in IN TEST the end is pending;
in IDLE and in WAITING GATE, whose mask is dropped, the step ends at once, HALT as it was, the units left are lost, and
the STEP TALLY is enqueued unless its counts do not balance (R52, R144, R146; the model's reading, log 42).
SITE_RESTORE, by the site number and the site record (R141); a RETIRED site and the replica, with any STATION hold, are
left as they are. That an END_STEP for a head already in ENDING is answered NOT_FOUND, where R146 would also let it be
OK, is the model's choice (log 43). -/
def Obligations.EndStepAndSiteRestoreAreTaken : Prop :=
  (∀ (s : State) (lot k : Nat), s.TakesAtOnce →
     (isWorking s.blocks.station = false → exec (.endStep lot k) s = .next (s.taking.respondCode 30 .badState).finish) ∧
     (isWorking s.blocks.station = true →
       (∀ h q, s.blocks.du.queue = h :: q → ¬(h.lot = lot ∧ h.step = k ∧ h.phase = .running)) →
       exec (.endStep lot k) s = .next (s.taking.respondCode 30 .notFound).finish) ∧
     (∀ h q, isWorking s.blocks.station = true → s.blocks.du.queue = h :: q → h.lot = lot → h.step = k →
       h.phase = .running →
       (∀ m n, s.blocks.iw.insertion = .inTest m n →
         exec (.endStep lot k) s = .next (State.finish (State.respondCode (s.taking.withIw
           { s.blocks.iw with counters := { s.blocks.iw.counters with endPending := true } }) 30 .ok))) ∧
       (∀ c x kit e lost u, (s.blocks.iw.insertion = .idle ∨ ∃ m, s.blocks.iw.insertion = .waitingGate m) →
         s.blocks.iw.counters = c → c.step = k →
         s.re.replica.step? lot k = some x → x.state = .running s.stationId kit e →
         lost = c.lost + (c.entered - c.tested - c.lost) →
         u = State.withIw
           { s.taking with blocks := updateEntry lot k (fun y => { y with phase := .ending }) s.taking.blocks }
           { s.blocks.iw with insertion := .idle, counters := { c with endPending := true, lost := lost } } →
         (c.entered = c.pass + c.fail + lost → exec (.endStep lot k) s = .next (State.finish (State.respondCode
           (u.offered (.stepTally lot k kit c.entered c.pass c.fail lost c.insertions) 63 .iw) 30 .ok))) ∧
         (c.entered ≠ c.pass + c.fail + lost →
           exec (.endStep lot k) s = .next (State.finish (u.respondCode 30 .ok)))))) ∧
  (∀ (s : State) (n : Nat), s.TakesAtOnce →
     (n = 0 ∨ 8 < n ∨ s.config.siteCount < n →
       exec (.siteRestore n) s = .next (s.taking.respondBad 31 1).finish) ∧
     (1 ≤ n → n ≤ 8 → n ≤ s.config.siteCount →
       ((s.blocks.iw.site n).state = .masked → (s.blocks.iw.site n).masks ≤ 2 →
         exec (.siteRestore n) s = .next (State.finish (State.respondCode (s.taking.withSite n
           ⟨.enabled, 0, (s.blocks.iw.site n).masks⟩) 31 .ok))) ∧
       ((s.blocks.iw.site n).state = .masked → 3 ≤ (s.blocks.iw.site n).masks →
         exec (.siteRestore n) s = .next (State.finish (State.respondCode (State.raised (s.taking.withSite n
           ⟨.retired, (s.blocks.iw.site n).fails, (s.blocks.iw.site n).masks⟩) (.siteRetired n)) 31 .ok))) ∧
       ((s.blocks.iw.site n).state ≠ .masked →
         exec (.siteRestore n) s = .next (s.taking.respondCode 31 .ok).finish)))

/-! ### The wires -/

/-- What a station sends is what a station reads: a content whose fields are within their widths, written as its payload
and read by its kind, is itself (12.1). A frame built from a content is judged good by its receiver, as that content
(R5, 12.1). The levels a transmitter drives for a frame hold no seven equal in a row, and are read as that frame on an
idle medium and behind 11 recessive bit times in a row, those that ended a cut frame among them, but not on a medium
that has not been idle (R1, R2). That no stuff bit stands behind the last CRC bit, so that whatever follows is not read,
is the model's choice (log 37). -/
def Obligations.FramesAreReadBack : Prop :=
  (∀ b : FrameBody, b.wf = true → readBody b.kind b.payload = some b) ∧
  (∀ (sender target : Nat) (b : FrameBody), b.wf = true → sender < 64 → target < 64 →
     judgeFrame (buildFrame sender target b) = some b) ∧
  (∀ (f : RxFrame) (rest : List Bool), f.payload.length < 128 →
     receiveLevels .idle (wireLevels f ++ rest) = some (some f) ∧
     receiveLevels .receiving (wireLevels f ++ rest) = some (some f) ∧
     (∀ n k, 11 ≤ n + k →
       receiveLevels (.notIdle n) (List.replicate k true ++ wireLevels f ++ rest) = some (some f) ∧
       receiveLevels (.ended n) (List.replicate k true ++ wireLevels f ++ rest) = some (some f))) ∧
  (∀ (f : RxFrame) (n k : Nat), n + k < 11 →
     receiveLevels (.notIdle n) (List.replicate k true ++ wireLevels f) = none ∧
     receiveLevels (.ended n) (List.replicate k true ++ wireLevels f) = none) ∧
  (∀ (f : RxFrame) (x : Bool) (pre post : List Bool), wireLevels f ≠ pre ++ List.replicate 7 x ++ post)
end

