-- ==== Sys2Proof/Laws/State.lean ====
section
/-! SUPPORT. One lemma per block per named update of the blocks, and per field per update of the state: each true by
definition. -/

namespace Sys2Proof.Machine

@[simp] theorem raise_lc (n : Notice) (b : Blocks) : (raise n b).lc = b.lc := rfl
@[simp] theorem raise_pu (n : Notice) (b : Blocks) : (raise n b).pu = b.pu := rfl
@[simp] theorem raise_cu (n : Notice) (b : Blocks) : (raise n b).cu = b.cu := rfl
@[simp] theorem raise_du (n : Notice) (b : Blocks) : (raise n b).du = b.du := rfl
@[simp] theorem raise_hr (n : Notice) (b : Blocks) : (raise n b).hr = b.hr := rfl
@[simp] theorem raise_le (n : Notice) (b : Blocks) : (raise n b).le = b.le := rfl
@[simp] theorem raise_iw (n : Notice) (b : Blocks) : (raise n b).iw = b.iw := rfl
@[simp] theorem raise_cli (n : Notice) (b : Blocks) : (raise n b).cli = raiseCli n b.cli := rfl

@[simp] theorem markDue_lc (b : Blocks) : (markDue b).lc = b.lc := rfl
@[simp] theorem markDue_pu (b : Blocks) : (markDue b).pu = b.pu := rfl
@[simp] theorem markDue_cu (b : Blocks) : (markDue b).cu = b.cu := rfl
@[simp] theorem markDue_du (b : Blocks) : (markDue b).du = { b.du with evalDue := true } := rfl
@[simp] theorem markDue_hr (b : Blocks) : (markDue b).hr = b.hr := rfl
@[simp] theorem markDue_le (b : Blocks) : (markDue b).le = b.le := rfl
@[simp] theorem markDue_iw (b : Blocks) : (markDue b).iw = b.iw := rfl
@[simp] theorem markDue_cli (b : Blocks) : (markDue b).cli = b.cli := rfl

@[simp] theorem setOp_lc (o : Option Operation) (b : Blocks) : (setOp o b).lc = b.lc := rfl
@[simp] theorem setOp_pu (o : Option Operation) (b : Blocks) : (setOp o b).pu = b.pu := rfl
@[simp] theorem setOp_cu (o : Option Operation) (b : Blocks) : (setOp o b).cu = b.cu := rfl
@[simp] theorem setOp_du (o : Option Operation) (b : Blocks) : (setOp o b).du = b.du := rfl
@[simp] theorem setOp_hr (o : Option Operation) (b : Blocks) : (setOp o b).hr = b.hr := rfl
@[simp] theorem setOp_le (o : Option Operation) (b : Blocks) : (setOp o b).le = { b.le with op := o } := rfl
@[simp] theorem setOp_iw (o : Option Operation) (b : Blocks) : (setOp o b).iw = b.iw := rfl
@[simp] theorem setOp_cli (o : Option Operation) (b : Blocks) : (setOp o b).cli = b.cli := rfl

@[simp] theorem sendDirective_lc (d : Directive) (b : Blocks) : (sendDirective d b).lc = b.lc := rfl
@[simp] theorem sendDirective_pu (d : Directive) (b : Blocks) : (sendDirective d b).pu = b.pu := rfl
@[simp] theorem sendDirective_cu (d : Directive) (b : Blocks) : (sendDirective d b).cu = b.cu := rfl
@[simp] theorem sendDirective_du (d : Directive) (b : Blocks) : (sendDirective d b).du = b.du := rfl
@[simp] theorem sendDirective_hr (d : Directive) (b : Blocks) : (sendDirective d b).hr = b.hr := rfl
@[simp] theorem sendDirective_le (d : Directive) (b : Blocks) :
    (sendDirective d b).le = { b.le with sent := b.le.sent ++ [d] } := rfl
@[simp] theorem sendDirective_iw (d : Directive) (b : Blocks) : (sendDirective d b).iw = b.iw := rfl
@[simp] theorem sendDirective_cli (d : Directive) (b : Blocks) : (sendDirective d b).cli = b.cli := rfl

@[simp] theorem updateEntry_lc (l k : Nat) (f : QueueEntry → QueueEntry) (b : Blocks) :
    (updateEntry l k f b).lc = b.lc := rfl
@[simp] theorem updateEntry_pu (l k : Nat) (f : QueueEntry → QueueEntry) (b : Blocks) :
    (updateEntry l k f b).pu = b.pu := rfl
@[simp] theorem updateEntry_cu (l k : Nat) (f : QueueEntry → QueueEntry) (b : Blocks) :
    (updateEntry l k f b).cu = b.cu := rfl
@[simp] theorem updateEntry_du (l k : Nat) (f : QueueEntry → QueueEntry) (b : Blocks) :
    (updateEntry l k f b).du = b.du.updateEntry l k f := rfl
@[simp] theorem updateEntry_hr (l k : Nat) (f : QueueEntry → QueueEntry) (b : Blocks) :
    (updateEntry l k f b).hr = b.hr := rfl
@[simp] theorem updateEntry_le (l k : Nat) (f : QueueEntry → QueueEntry) (b : Blocks) :
    (updateEntry l k f b).le = b.le := rfl
@[simp] theorem updateEntry_iw (l k : Nat) (f : QueueEntry → QueueEntry) (b : Blocks) :
    (updateEntry l k f b).iw = b.iw := rfl
@[simp] theorem updateEntry_cli (l k : Nat) (f : QueueEntry → QueueEntry) (b : Blocks) :
    (updateEntry l k f b).cli = b.cli := rfl

@[simp] theorem withdrawAll_lc (p : FrameBody → Bool) (b : Blocks) :
    (withdrawAll p b).lc = withdrawLc p b.lc := rfl
@[simp] theorem withdrawAll_pu (p : FrameBody → Bool) (b : Blocks) : (withdrawAll p b).pu = b.pu := rfl
@[simp] theorem withdrawAll_cu (p : FrameBody → Bool) (b : Blocks) : (withdrawAll p b).cu = b.cu := rfl
@[simp] theorem withdrawAll_du (p : FrameBody → Bool) (b : Blocks) : (withdrawAll p b).du = b.du := rfl
@[simp] theorem withdrawAll_hr (p : FrameBody → Bool) (b : Blocks) : (withdrawAll p b).hr = b.hr := rfl
@[simp] theorem withdrawAll_le (p : FrameBody → Bool) (b : Blocks) : (withdrawAll p b).le = b.le := rfl
@[simp] theorem withdrawAll_iw (p : FrameBody → Bool) (b : Blocks) : (withdrawAll p b).iw = b.iw := rfl
@[simp] theorem withdrawAll_cli (p : FrameBody → Bool) (b : Blocks) : (withdrawAll p b).cli = b.cli := rfl

@[simp] theorem setRequest_lc (r : Option KitRequest) (b : Blocks) : (setRequest r b).lc = b.lc := rfl
@[simp] theorem setRequest_pu (r : Option KitRequest) (b : Blocks) : (setRequest r b).pu = b.pu := rfl
@[simp] theorem setRequest_cu (r : Option KitRequest) (b : Blocks) : (setRequest r b).cu = b.cu := rfl
@[simp] theorem setRequest_du (r : Option KitRequest) (b : Blocks) : (setRequest r b).du = b.du := rfl
@[simp] theorem setRequest_hr (r : Option KitRequest) (b : Blocks) :
    (setRequest r b).hr = { b.hr with request := r } := rfl
@[simp] theorem setRequest_le (r : Option KitRequest) (b : Blocks) : (setRequest r b).le = b.le := rfl
@[simp] theorem setRequest_iw (r : Option KitRequest) (b : Blocks) : (setRequest r b).iw = b.iw := rfl
@[simp] theorem setRequest_cli (r : Option KitRequest) (b : Blocks) : (setRequest r b).cli = b.cli := rfl

@[simp] theorem setFitted_lc (k : Option Nat) (b : Blocks) : (setFitted k b).lc = b.lc := rfl
@[simp] theorem setFitted_pu (k : Option Nat) (b : Blocks) : (setFitted k b).pu = b.pu := rfl
@[simp] theorem setFitted_cu (k : Option Nat) (b : Blocks) : (setFitted k b).cu = b.cu := rfl
@[simp] theorem setFitted_du (k : Option Nat) (b : Blocks) :
    (setFitted k b).du = { b.du with evalDue := true } := rfl
@[simp] theorem setFitted_hr (k : Option Nat) (b : Blocks) : (setFitted k b).hr = { b.hr with fitted := k } := rfl
@[simp] theorem setFitted_le (k : Option Nat) (b : Blocks) : (setFitted k b).le = b.le := rfl
@[simp] theorem setFitted_iw (k : Option Nat) (b : Blocks) : (setFitted k b).iw = b.iw := rfl
@[simp] theorem setFitted_cli (k : Option Nat) (b : Blocks) : (setFitted k b).cli = b.cli := rfl

@[simp] theorem setBand_lc (x : Band) (st : Bool) (b : Blocks) : (setBand x st b).lc = b.lc := rfl
@[simp] theorem setBand_pu (x : Band) (st : Bool) (b : Blocks) : (setBand x st b).pu = b.pu := rfl
@[simp] theorem setBand_cu (x : Band) (st : Bool) (b : Blocks) : (setBand x st b).cu = b.cu := rfl
@[simp] theorem setBand_du (x : Band) (st : Bool) (b : Blocks) :
    (setBand x st b).du = { b.du with evalDue := true } := rfl
@[simp] theorem setBand_hr (x : Band) (st : Bool) (b : Blocks) :
    (setBand x st b).hr = { b.hr with band := x, stable := st } := rfl
@[simp] theorem setBand_le (x : Band) (st : Bool) (b : Blocks) : (setBand x st b).le = b.le := rfl
@[simp] theorem setBand_iw (x : Band) (st : Bool) (b : Blocks) : (setBand x st b).iw = b.iw := rfl
@[simp] theorem setBand_cli (x : Band) (st : Bool) (b : Blocks) : (setBand x st b).cli = b.cli := rfl

@[simp] theorem setReleases_lc (rs : List ReleaseRec) (b : Blocks) : (setReleases rs b).lc = b.lc := rfl
@[simp] theorem setReleases_pu (rs : List ReleaseRec) (b : Blocks) : (setReleases rs b).pu = b.pu := rfl
@[simp] theorem setReleases_cu (rs : List ReleaseRec) (b : Blocks) : (setReleases rs b).cu = b.cu := rfl
@[simp] theorem setReleases_du (rs : List ReleaseRec) (b : Blocks) :
    (setReleases rs b).du = { b.du with releases := rs } := rfl
@[simp] theorem setReleases_hr (rs : List ReleaseRec) (b : Blocks) : (setReleases rs b).hr = b.hr := rfl
@[simp] theorem setReleases_le (rs : List ReleaseRec) (b : Blocks) : (setReleases rs b).le = b.le := rfl
@[simp] theorem setReleases_iw (rs : List ReleaseRec) (b : Blocks) : (setReleases rs b).iw = b.iw := rfl
@[simp] theorem setReleases_cli (rs : List ReleaseRec) (b : Blocks) : (setReleases rs b).cli = b.cli := rfl

@[simp] theorem setSession_lc (ss : Option ServeSession) (b : Blocks) : (setSession ss b).lc = b.lc := rfl
@[simp] theorem setSession_pu (ss : Option ServeSession) (b : Blocks) : (setSession ss b).pu = b.pu := rfl
@[simp] theorem setSession_cu (ss : Option ServeSession) (b : Blocks) :
    (setSession ss b).cu = { b.cu with session := ss } := rfl
@[simp] theorem setSession_du (ss : Option ServeSession) (b : Blocks) : (setSession ss b).du = b.du := rfl
@[simp] theorem setSession_hr (ss : Option ServeSession) (b : Blocks) : (setSession ss b).hr = b.hr := rfl
@[simp] theorem setSession_le (ss : Option ServeSession) (b : Blocks) : (setSession ss b).le = b.le := rfl
@[simp] theorem setSession_iw (ss : Option ServeSession) (b : Blocks) : (setSession ss b).iw = b.iw := rfl
@[simp] theorem setSession_cli (ss : Option ServeSession) (b : Blocks) : (setSession ss b).cli = b.cli := rfl

@[simp] theorem setLc_lc (x : LinkController) (b : Blocks) : (setLc x b).lc = x := rfl
@[simp] theorem setLc_pu (x : LinkController) (b : Blocks) : (setLc x b).pu = b.pu := rfl
@[simp] theorem setLc_cu (x : LinkController) (b : Blocks) : (setLc x b).cu = b.cu := rfl
@[simp] theorem setLc_du (x : LinkController) (b : Blocks) : (setLc x b).du = b.du := rfl
@[simp] theorem setLc_hr (x : LinkController) (b : Blocks) : (setLc x b).hr = b.hr := rfl
@[simp] theorem setLc_le (x : LinkController) (b : Blocks) : (setLc x b).le = b.le := rfl
@[simp] theorem setLc_iw (x : LinkController) (b : Blocks) : (setLc x b).iw = b.iw := rfl
@[simp] theorem setLc_cli (x : LinkController) (b : Blocks) : (setLc x b).cli = b.cli := rfl

@[simp] theorem setIw_lc (x : InsertionWatch) (b : Blocks) : (setIw x b).lc = b.lc := rfl
@[simp] theorem setIw_pu (x : InsertionWatch) (b : Blocks) : (setIw x b).pu = b.pu := rfl
@[simp] theorem setIw_cu (x : InsertionWatch) (b : Blocks) : (setIw x b).cu = b.cu := rfl
@[simp] theorem setIw_du (x : InsertionWatch) (b : Blocks) : (setIw x b).du = b.du := rfl
@[simp] theorem setIw_hr (x : InsertionWatch) (b : Blocks) : (setIw x b).hr = b.hr := rfl
@[simp] theorem setIw_le (x : InsertionWatch) (b : Blocks) : (setIw x b).le = b.le := rfl
@[simp] theorem setIw_iw (x : InsertionWatch) (b : Blocks) : (setIw x b).iw = x := rfl
@[simp] theorem setIw_cli (x : InsertionWatch) (b : Blocks) : (setIw x b).cli = b.cli := rfl

@[simp] theorem setCli_lc (x : CellLineInterface) (b : Blocks) : (setCli x b).lc = b.lc := rfl
@[simp] theorem setCli_pu (x : CellLineInterface) (b : Blocks) : (setCli x b).pu = b.pu := rfl
@[simp] theorem setCli_cu (x : CellLineInterface) (b : Blocks) : (setCli x b).cu = b.cu := rfl
@[simp] theorem setCli_du (x : CellLineInterface) (b : Blocks) : (setCli x b).du = b.du := rfl
@[simp] theorem setCli_hr (x : CellLineInterface) (b : Blocks) : (setCli x b).hr = b.hr := rfl
@[simp] theorem setCli_le (x : CellLineInterface) (b : Blocks) : (setCli x b).le = b.le := rfl
@[simp] theorem setCli_iw (x : CellLineInterface) (b : Blocks) : (setCli x b).iw = b.iw := rfl
@[simp] theorem setCli_cli (x : CellLineInterface) (b : Blocks) : (setCli x b).cli = x := rfl

@[simp] theorem setCounters_lc (c : StepCounters) (b : Blocks) : (setCounters c b).lc = b.lc := rfl
@[simp] theorem setCounters_pu (c : StepCounters) (b : Blocks) : (setCounters c b).pu = b.pu := rfl
@[simp] theorem setCounters_cu (c : StepCounters) (b : Blocks) : (setCounters c b).cu = b.cu := rfl
@[simp] theorem setCounters_du (c : StepCounters) (b : Blocks) : (setCounters c b).du = b.du := rfl
@[simp] theorem setCounters_hr (c : StepCounters) (b : Blocks) : (setCounters c b).hr = b.hr := rfl
@[simp] theorem setCounters_le (c : StepCounters) (b : Blocks) : (setCounters c b).le = b.le := rfl
@[simp] theorem setCounters_iw (c : StepCounters) (b : Blocks) :
    (setCounters c b).iw = { b.iw with counters := c } := rfl
@[simp] theorem setCounters_cli (c : StepCounters) (b : Blocks) : (setCounters c b).cli = b.cli := rfl

@[simp] theorem setTesterRx_lc (bs : List Byte) (b : Blocks) : (setTesterRx bs b).lc = b.lc := rfl
@[simp] theorem setTesterRx_pu (bs : List Byte) (b : Blocks) : (setTesterRx bs b).pu = b.pu := rfl
@[simp] theorem setTesterRx_cu (bs : List Byte) (b : Blocks) : (setTesterRx bs b).cu = b.cu := rfl
@[simp] theorem setTesterRx_du (bs : List Byte) (b : Blocks) : (setTesterRx bs b).du = b.du := rfl
@[simp] theorem setTesterRx_hr (bs : List Byte) (b : Blocks) : (setTesterRx bs b).hr = b.hr := rfl
@[simp] theorem setTesterRx_le (bs : List Byte) (b : Blocks) :
    (setTesterRx bs b).le = { b.le with rx := bs } := rfl
@[simp] theorem setTesterRx_iw (bs : List Byte) (b : Blocks) : (setTesterRx bs b).iw = b.iw := rfl
@[simp] theorem setTesterRx_cli (bs : List Byte) (b : Blocks) : (setTesterRx bs b).cli = b.cli := rfl

@[simp] theorem stopDeference_lc (l k : Nat) (b : Blocks) : (stopDeference l k b).lc = b.lc := rfl
@[simp] theorem stopDeference_pu (l k : Nat) (b : Blocks) : (stopDeference l k b).pu = b.pu := rfl
@[simp] theorem stopDeference_cu (l k : Nat) (b : Blocks) : (stopDeference l k b).cu = b.cu := rfl
@[simp] theorem stopDeference_du (l k : Nat) (b : Blocks) :
    (stopDeference l k b).du = { b.du with timers := b.du.timers.filter fun t => !(t.lot == l && t.step == k) } := rfl
@[simp] theorem stopDeference_hr (l k : Nat) (b : Blocks) : (stopDeference l k b).hr = b.hr := rfl
@[simp] theorem stopDeference_le (l k : Nat) (b : Blocks) : (stopDeference l k b).le = b.le := rfl
@[simp] theorem stopDeference_iw (l k : Nat) (b : Blocks) : (stopDeference l k b).iw = b.iw := rfl
@[simp] theorem stopDeference_cli (l k : Nat) (b : Blocks) : (stopDeference l k b).cli = b.cli := rfl

@[simp] theorem closeGate_lc (b : Blocks) : (closeGate b).lc = b.lc := rfl
@[simp] theorem closeGate_pu (b : Blocks) : (closeGate b).pu = b.pu := rfl
@[simp] theorem closeGate_cu (b : Blocks) : (closeGate b).cu = b.cu := rfl
@[simp] theorem closeGate_du (b : Blocks) : (closeGate b).du = b.du := rfl
@[simp] theorem closeGate_hr (b : Blocks) : (closeGate b).hr = b.hr := rfl
@[simp] theorem closeGate_le (b : Blocks) : (closeGate b).le = b.le := rfl
@[simp] theorem closeGate_iw (b : Blocks) : (closeGate b).iw = closeGateIw b.iw := rfl
@[simp] theorem closeGate_cli (b : Blocks) : (closeGate b).cli = b.cli := rfl

@[simp] theorem State.mapBlocks_pending (s : State) (f : View → Blocks → Blocks) : (s.mapBlocks f).pending = s.pending := rfl
@[simp] theorem State.mapBlocks_stationId (s : State) (f : View → Blocks → Blocks) : (s.mapBlocks f).stationId = s.stationId := rfl
@[simp] theorem State.mapBlocks_config (s : State) (f : View → Blocks → Blocks) : (s.mapBlocks f).config = s.config := rfl
@[simp] theorem State.mapBlocks_re (s : State) (f : View → Blocks → Blocks) : (s.mapBlocks f).re = s.re := rfl
@[simp] theorem State.mapBlocks_blocks (s : State) (f : View → Blocks → Blocks) : (s.mapBlocks f).blocks = f s.view s.blocks := rfl
@[simp] theorem State.finish_pending (s : State) : (s.finish).pending = s.pending := rfl
@[simp] theorem State.finish_stationId (s : State) : (s.finish).stationId = s.stationId := rfl
@[simp] theorem State.finish_config (s : State) : (s.finish).config = s.config := rfl
@[simp] theorem State.finish_re (s : State) : (s.finish).re = s.re := rfl
@[simp] theorem State.finish_blocks (s : State) : (s.finish).blocks = Sys2Proof.Machine.finish s.view s.blocks := rfl
@[simp] theorem State.taking_pending (s : State) : (s.taking).pending = s.pending := rfl
@[simp] theorem State.taking_stationId (s : State) : (s.taking).stationId = s.stationId := rfl
@[simp] theorem State.taking_config (s : State) : (s.taking).config = s.config := rfl
@[simp] theorem State.taking_re (s : State) : (s.taking).re = s.re := rfl
@[simp] theorem State.mapBlocks_view (s : State) (f : View → Blocks → Blocks) : (s.mapBlocks f).view = s.view := rfl
@[simp] theorem State.finish_view (s : State) : s.finish.view = s.view := rfl

/-- Raising a notice puts it in the queue or sets the notices-lost flag (R175). -/
theorem raise_reported (n : Notice) (b : Blocks) : (raise n b).reported n := by
  unfold Blocks.reported; simp only [raise_cli, raiseCli]; split <;> simp

/-- Notices are only added at the end by a raise (R175). -/
theorem raise_notices_prefix (n : Notice) (b : Blocks) : b.cli.notices <+: (raise n b).cli.notices := by
  simp only [raise_cli, raiseCli]; split <;> simp

theorem raise_lost (n : Notice) (b : Blocks) (h : b.cli.noticesLost = true) : (raise n b).cli.noticesLost = true := by
  simp only [raise_cli, raiseCli]; split <;> simp [h]

end Sys2Proof.Machine
end

