-- ==== Sys2Proof/Laws/Settle.lean ====
section
/-! SUPPORT. What the evaluations at the end of a command can do, once for all: `settle_evolves` and
`finish_evolves`, with the lemma of each operation they are made of. -/

namespace Sys2Proof.Machine

theorem Evolves.refl (b : Blocks) : Evolves b b :=
  ⟨rfl, rfl, List.prefix_rfl, id, fun _ _ h => h⟩

theorem Evolves.trans {a b c : Blocks} (h : Evolves a b) (k : Evolves b c) : Evolves a c :=
  ⟨k.core.trans h.core, k.steps.trans h.steps, h.notices.trans k.notices, fun x => k.lost (h.lost x),
    fun m n x => k.test m n (h.test m n x)⟩

theorem Evolves.ite {p : Prop} [Decidable p] {a b c : Blocks} (h : Evolves a b) (k : Evolves a c) :
    Evolves a (if p then b else c) := by
  split
  · exact h
  · exact k

/-- A change outside the core and the compared fields. -/
theorem Evolves.of_eq {b c : Blocks} (h : c.core = b.core) (hs : c.steps = b.steps) (hn : c.cli = b.cli)
    (hi : ∀ m n, b.iw.insertion = .inTest m n → c.iw.insertion = .inTest m n) : Evolves b c :=
  ⟨h, hs, hn ▸ List.prefix_rfl, fun x => hn ▸ x, hi⟩

theorem raise_evolves (n : Notice) (b : Blocks) : Evolves b (raise n b) where
  core := by
    simp only [Blocks.core, raise_lc, raise_pu, raise_cu, raise_du, raise_hr, raise_le, raise_iw, raise_cli, raiseCli]
    split <;> rfl
  steps := rfl
  notices := raise_notices_prefix n b
  lost := raise_lost n b
  test := fun _ _ h => h

theorem raiseIf_evolves (c : Bool) (n : Notice) (b : Blocks) : Evolves b (raiseIf c n b) :=
  .ite (raise_evolves n b) (.refl b)

theorem markDue_evolves (b : Blocks) : Evolves b (markDue b) := .of_eq rfl rfl rfl fun _ _ h => h

theorem setOp_evolves (o : Option Operation) (b : Blocks) : Evolves b (setOp o b) := .of_eq rfl rfl rfl fun _ _ h => h

theorem sendDirective_evolves (d : Directive) (b : Blocks) : Evolves b (sendDirective d b) :=
  .of_eq rfl rfl rfl fun _ _ h => h

theorem setSlot_evolves (s : Slot) (r : SlotRec) (b : Blocks) : Evolves b (setSlot s r b) := by
  cases s <;> exact .of_eq rfl rfl rfl fun _ _ h => h

theorem setRequest_evolves (r : Option KitRequest) (b : Blocks) : Evolves b (setRequest r b) :=
  .of_eq rfl rfl rfl fun _ _ h => h

theorem setLc_evolves (q w : List SendEntry) (b : Blocks) :
    Evolves b { b with lc := { b.lc with queue := q, waiting := w } } := .of_eq rfl rfl rfl fun _ _ h => h

/-- The fields of the LC that no queue operation touches. -/
theorem grantOne_rest (lc : LinkController) :
    (grantOne lc).medium = lc.medium ∧ (grantOne lc).tx = lc.tx ∧ (grantOne lc).junk = lc.junk := by
  unfold grantOne
  split
  · split <;> exact ⟨rfl, rfl, rfl⟩
  · exact ⟨rfl, rfl, rfl⟩

theorem grants_rest (n : Nat) : ∀ lc : LinkController,
    (grants n lc).medium = lc.medium ∧ (grants n lc).tx = lc.tx ∧ (grants n lc).junk = lc.junk := by
  induction n with
  | zero => exact fun lc => ⟨rfl, rfl, rfl⟩
  | succ n ih =>
    intro lc
    have h := ih (grantOne lc)
    have k := grantOne_rest lc
    exact ⟨h.1.trans k.1, h.2.1.trans k.2.1, h.2.2.trans k.2.2⟩

theorem refill_rest (n : Nat) (lc : LinkController) :
    (refill n lc).medium = lc.medium ∧ (refill n lc).tx = lc.tx ∧ (refill n lc).junk = lc.junk := by
  unfold refill
  exact grants_rest _ lc

theorem release_rest (p : SendEntry → Bool) (lc : LinkController) :
    (lc.release p).medium = lc.medium ∧ (lc.release p).tx = lc.tx ∧ (lc.release p).junk = lc.junk :=
  refill_rest _ _

theorem withdrawLc_rest (p : FrameBody → Bool) (lc : LinkController) :
    (withdrawLc p lc).medium = lc.medium ∧ (withdrawLc p lc).tx = lc.tx ∧ (withdrawLc p lc).junk = lc.junk := by
  unfold withdrawLc
  exact release_rest _ _

theorem offerLc_rest (e : SendEntry) (lc : LinkController) :
    (offerLc e lc).medium = lc.medium ∧ (offerLc e lc).tx = lc.tx ∧ (offerLc e lc).junk = lc.junk := by
  unfold offerLc
  split
  · exact ⟨rfl, rfl, rfl⟩
  · split <;> exact ⟨rfl, rfl, rfl⟩

/-- A change of the Send Queue and the offers alone. -/
theorem evolves_of_lc {b : Blocks} {lc : LinkController}
    (h : lc.medium = b.lc.medium ∧ lc.tx = b.lc.tx ∧ lc.junk = b.lc.junk) : Evolves b { b with lc := lc } := by
  refine .of_eq ?_ rfl rfl fun _ _ h => h
  simp only [Blocks.core, h.1, h.2.1, h.2.2]

theorem withdrawAll_evolves (p : FrameBody → Bool) (b : Blocks) : Evolves b (withdrawAll p b) :=
  evolves_of_lc (withdrawLc_rest p b.lc)

theorem withdrawFrame_evolves (x : FrameBody) (b : Blocks) : Evolves b (withdrawFrame x b) := withdrawAll_evolves _ b

theorem offer_evolves (body : FrameBody) (t : Nat) (o : Owner) (h : Bool) (b : Blocks) :
    Evolves b (offer body t o h b) := .ite (evolves_of_lc (offerLc_rest _ b.lc)) (.refl b)

/-- A change of an entry that keeps its lot and step keeps the queue's steps. -/
theorem updateEntry_evolves (l k : Nat) (f : QueueEntry → QueueEntry) (hf : ∀ e, (f e).key = e.key) (b : Blocks) :
    Evolves b (updateEntry l k f b) := by
  refine .of_eq rfl ?_ rfl fun _ _ h => h
  simp only [Blocks.steps, updateEntry_du, DispatchUnit.updateEntry, List.map_map]
  refine List.map_congr_left fun e _ => ?_
  simp only [Function.comp]
  split
  · exact hf e
  · rfl

theorem match_evolves {α : Type} {b : Blocks} (o : Option α) (f : α → Blocks) (g : Blocks)
    (hf : ∀ x, Evolves b (f x)) (hg : Evolves b g) :
    Evolves b (match o with | some x => f x | none => g) := by
  cases o
  · exact hg
  · exact hf _

/-! ### Cedes -/

theorem enqueueCede_evolves (l k : Nat) (host : Bool) (b : Blocks) : Evolves b (enqueueCede l k host b) :=
  .ite (.refl b) (offer_evolves _ _ _ _ b)

theorem dueIfReady_evolves (e : QueueEntry) (b : Blocks) : Evolves b (dueIfReady e b) :=
  .ite (markDue_evolves b) (.refl b)

theorem setCede_evolves (c : CedeCause) (l k : Nat) (b : Blocks) : Evolves b (setCede c l k b) := by
  unfold setCede
  split
  · next e _ =>
    refine .ite ?_ (.refl b)
    have h1 := updateEntry_evolves l k (fun e => { e with cede := some (mergeCause e.cede c) }) (fun _ => rfl) b
    have h2 := (h1.trans (Evolves.ite (p := e.phase == .ready) (withdrawAll_evolves (isStartOf l k) _)
      (.refl _))).trans (dueIfReady_evolves e _)
    exact .ite (h2.trans (enqueueCede_evolves l k (c == .host) _)) h2
  · exact .refl b

theorem setCedes_evolves (c : CedeCause) : ∀ (es : List QueueEntry) (b : Blocks), Evolves b (setCedes c es b)
  | [], b => .refl b
  | e :: es, b => (setCede_evolves c e.lot e.step b).trans (setCedes_evolves c es _)

theorem clearCede_evolves (c : CedeCause) (l k : Nat) (b : Blocks) : Evolves b (clearCede c l k b) :=
  (updateEntry_evolves l k (fun e => if e.cede == some c then { e with cede := none, asked := false } else e)
    (fun e => by split <;> rfl) b).trans (withdrawFrame_evolves _ _)

theorem oweCedes_evolves : ∀ (es : List QueueEntry) (b : Blocks), Evolves b (oweCedes es b)
  | [], b => .refl b
  | e :: es, b => by
    refine Evolves.trans ?_ (oweCedes_evolves es _)
    split
    · exact .ite (enqueueCede_evolves _ _ _ b) (.refl b)
    · exact .refl b

theorem holdCede_evolves (v : View) (e : QueueEntry) (b : Blocks) : Evolves b (holdCede v e b) :=
  .ite (.ite (setCede_evolves _ _ _ b) (.refl b)) (.ite (clearCede_evolves _ _ _ b) (.refl b))

theorem holdCedes_evolves (v : View) : ∀ (es : List QueueEntry) (b : Blocks), Evolves b (holdCedes v es b)
  | [], b => .refl b
  | e :: es, b => (holdCede_evolves v e b).trans (holdCedes_evolves v es _)

/-! ### The kit request -/

theorem endRequest_evolves (b : Blocks) : Evolves b (endRequest b) := by
  unfold endRequest
  split
  · exact (setRequest_evolves none b).trans (withdrawAll_evolves _ _)
  · exact .refl b

theorem chooseKit_evolves (v : View) (r : KitRequest) (b : Blocks) : Evolves b (chooseKit v r b) := by
  unfold chooseKit
  refine .ite (endRequest_evolves b) ?_
  split
  · exact (setRequest_evolves _ b).trans (raise_evolves _ _)
  · split
    · exact (setRequest_evolves _ b).trans (raise_evolves _ _)
    · split
      · exact (setRequest_evolves _ b).trans (offer_evolves _ _ _ _ _)
      · exact (endRequest_evolves b).trans (setCede_evolves _ _ _ _)

theorem askKit_evolves (v : View) (l k f : Nat) (b : Blocks) : Evolves b (askKit v l k f b) := by
  unfold askKit
  split
  · exact .ite (.refl b) ((endRequest_evolves b).trans (chooseKit_evolves v _ _))
  · exact chooseKit_evolves v _ b

theorem upkeepRequest_evolves (b : Blocks) : Evolves b (upkeepRequest b) := by
  unfold upkeepRequest
  split
  · split
    · exact .ite (.refl b) (endRequest_evolves b)
    · exact endRequest_evolves b
  · exact .refl b

/-! ### The Dispatch Unit's evaluation -/

theorem computeNeeds_evolves (v : View) (e : QueueEntry) (b : Blocks) : Evolves b (computeNeeds v e b) := by
  unfold computeNeeds
  have h := updateEntry_evolves e.lot e.step
    (fun x => { x with
      kitNeeded := kitNeededOf v b e, bandNeeded := bandNeededOf v b e
      asked := x.asked && !(bandAgain b (bandNeededOf v b e) e && b.station == .joining) }) (fun _ => rfl) b
  simp only
  split
  · exact h.trans (raiseIf_evolves _ _ _)
  · exact h

theorem computeAllNeeds_evolves (v : View) : ∀ (es : List QueueEntry) (b : Blocks), Evolves b (computeAllNeeds v es b)
  | [], b => .refl b
  | e :: es, b => (computeNeeds_evolves v e b).trans (computeAllNeeds_evolves v es _)

theorem makeRequests_evolves (v : View) (e : QueueEntry) (b : Blocks) : Evolves b (makeRequests v e b) := by
  unfold makeRequests
  have h := updateEntry_evolves e.lot e.step (fun x => { x with asked := true }) (fun _ => rfl) b
  generalize updateEntry e.lot e.step (fun x => { x with asked := true }) b = c at h
  refine h.trans ?_
  simp only
  cases bandNeededOf v c e with
  | some x =>
    simp only
    split
    · exact (raise_evolves _ c).trans (askKit_evolves v _ _ _ _)
    · exact raise_evolves _ c
  | none =>
    simp only
    split
    · exact askKit_evolves v _ _ _ _
    · exact .refl c

theorem fallBack_evolves (e : QueueEntry) (b : Blocks) : Evolves b (fallBack e b) :=
  (updateEntry_evolves e.lot e.step (fun x => { x with phase := .preparing, asked := false }) (fun _ => rfl) b).trans
    (withdrawAll_evolves _ _)

theorem makeReady_evolves (e : QueueEntry) (b : Blocks) : Evolves b (makeReady e b) := by
  unfold makeReady
  split
  · exact (updateEntry_evolves e.lot e.step (fun x => { x with phase := .ready }) (fun _ => rfl) b).trans
      (offer_evolves _ _ _ _ _)
  · exact .refl b

theorem withHead_evolves (f : QueueEntry → Blocks → Blocks) (hf : ∀ e b, Evolves b (f e b)) (b : Blocks) :
    Evolves b (withHead f b) := by
  unfold withHead
  split
  · exact hf _ b
  · exact .refl b

theorem headFalls_evolves (v : View) (e : QueueEntry) (b : Blocks) : Evolves b (headFalls v e b) :=
  .ite (fallBack_evolves e b) (.refl b)

theorem headEnters_evolves (e : QueueEntry) (b : Blocks) : Evolves b (headEnters e b) :=
  .ite (updateEntry_evolves e.lot e.step (fun x => { x with phase := .preparing, asked := false }) (fun _ => rfl) b)
    (.refl b)

theorem enterHead_evolves (b : Blocks) : Evolves b (enterHead b) := withHead_evolves _ headEnters_evolves b

theorem headResumes_evolves (v : View) (b : Blocks) : Evolves b (headResumes v b) :=
  (enterHead_evolves b).trans (withHead_evolves _ (holdCede_evolves v) _)

theorem headAsks_evolves (v : View) (e : QueueEntry) (b : Blocks) : Evolves b (headAsks v e b) :=
  .ite (makeRequests_evolves v e b) (.refl b)

theorem headReady_evolves (v : View) (e : QueueEntry) (b : Blocks) : Evolves b (headReady v e b) :=
  .ite (makeReady_evolves e b) (.refl b)

theorem setTimers_evolves (ts : List DeferenceTimer) (b : Blocks) :
    Evolves b { b with du := { b.du with timers := ts } } := .of_eq rfl rfl rfl fun _ _ h => h

theorem startDeference_evolves (v : View) (l : LotRec) (k : Nat) (s : StepRec) (b : Blocks) :
    Evolves b (startDeference v l k s b) :=
  .ite (offer_evolves _ _ _ _ b) (setTimers_evolves _ b)

theorem deferStep_evolves (v : View) (l : LotRec) (k : Nat) (s : StepRec) (b : Blocks) :
    Evolves b (deferStep v l k s b) :=
  .ite (.ite (.refl b) (setTimers_evolves _ b))
    (.ite (.refl b) (.ite (startDeference_evolves v l k s b) (.refl b)))

theorem deferSteps_evolves (v : View) (l : LotRec) : ∀ (k : Nat) (ss : List StepRec) (b : Blocks),
    Evolves b (deferSteps v l k ss b)
  | _, [], b => .refl b
  | k, s :: ss, b =>
    (Evolves.ite (p := s.state.isWaiting) (deferStep_evolves v l k s b) (setTimers_evolves _ b)).trans
      (deferSteps_evolves v l (k + 1) ss _)

theorem deferLots_evolves (v : View) : ∀ (ls : List LotRec) (b : Blocks), Evolves b (deferLots v ls b)
  | [], b => .refl b
  | l :: ls, b => (deferSteps_evolves v l 1 l.plan b).trans (deferLots_evolves v ls _)

theorem evaluateDeference_evolves (v : View) (b : Blocks) : Evolves b (evaluateDeference v b) :=
  (setTimers_evolves _ b).trans (deferLots_evolves v _ _)

theorem evaluateDispatch_evolves (v : View) (b : Blocks) : Evolves b (evaluateDispatch v b) :=
  ((((((((computeAllNeeds_evolves v _ b).trans (enterHead_evolves _)).trans (holdCedes_evolves v _ _)).trans
    (headResumes_evolves v _)).trans (oweCedes_evolves _ _)).trans (withHead_evolves _ (headFalls_evolves v) _)).trans
    (withHead_evolves _ (headAsks_evolves v) _)).trans (withHead_evolves _ (headReady_evolves v) _)).trans
    (evaluateDeference_evolves v _)

theorem evaluateIfDue_evolves (v : View) (b : Blocks) : Evolves b (evaluateIfDue v b) := by
  unfold evaluateIfDue
  refine .ite ?_ (.refl b)
  have h : Evolves b { b with du := { b.du with evalDue := false } } := .of_eq rfl rfl rfl fun _ _ h => h
  exact h.trans (evaluateDispatch_evolves v _)

/-! ### The Load Engine's evaluation -/

theorem issueLoad_evolves (v : View) (s : Slot) (sp : StepSpec) (b : Blocks) : Evolves b (issueLoad v s sp b) :=
  ((setSlot_evolves _ _ b).trans (setOp_evolves _ _)).trans (sendDirective_evolves _ _)

theorem issueVerify_evolves (s : Slot) (b : Blocks) : Evolves b (issueVerify s b) := by
  unfold issueVerify
  split
  · exact ((setSlot_evolves _ _ b).trans (setOp_evolves _ _)).trans (sendDirective_evolves _ _)
  · exact .refl b

theorem issueSwap_evolves (b : Blocks) : Evolves b (issueSwap b) :=
  (setOp_evolves _ b).trans (sendDirective_evolves _ _)

theorem abortOp_evolves (s : Slot) (b : Blocks) : Evolves b (abortOp s b) :=
  ((setSlot_evolves _ _ b).trans (setOp_evolves _ _)).trans (sendDirective_evolves _ _)

theorem abortUnwanted_evolves (v : View) (b : Blocks) : Evolves b (abortUnwanted v b) := by
  unfold abortUnwanted
  repeat' first
    | exact .refl b
    | exact .ite (abortOp_evolves _ b) (.refl b)
    | split

/-- Every operation R117 chooses evolves. -/
theorem headWork_evolves (v : View) (b : Blocks) (f : Blocks → Blocks) (h : headWork v b = some f) :
    ∀ c, Evolves c (f c) := by
  unfold headWork at h
  intro c
  simp only at h
  repeat' first
    | cases h
    | exact issueVerify_evolves _ c
    | exact issueSwap_evolves c
    | exact issueLoad_evolves v _ _ c
    | split at h

/-- Every operation R118 chooses evolves. -/
theorem behindWork_evolves (v : View) (b : Blocks) (f : Blocks → Blocks) (h : behindWork v b = some f) :
    ∀ c, Evolves c (f c) := by
  unfold behindWork at h
  intro c
  repeat' first
    | cases h
    | exact issueVerify_evolves _ c
    | (simp only [Option.map_eq_some_iff] at h; obtain ⟨s, _, rfl⟩ := h; exact issueLoad_evolves v _ _ c)
    | split at h

theorem chooseWork_evolves (v : View) (b : Blocks) : Evolves b (chooseWork v b) := by
  unfold chooseWork
  split
  · exact .refl b
  · split
    · next h => exact headWork_evolves v b _ h b
    · split
      · next h => exact behindWork_evolves v b _ h b
      · exact .refl b

theorem evaluateLoad_evolves (v : View) (b : Blocks) : Evolves b (evaluateLoad v b) :=
  (abortUnwanted_evolves v b).trans (chooseWork_evolves v _)

/-! ### The gate -/

theorem issueGo_evolves (v : View) (m : SiteMask) (b : Blocks) (h : ∀ x n, b.iw.insertion ≠ .inTest x n) :
    Evolves b (issueGo v m b) := by
  unfold issueGo
  refine .ite ?_ ?_
  · have k : Evolves b { b with iw := { b.iw with insertion := .idle } } :=
      .of_eq rfl rfl rfl fun x n k => absurd k (h x n)
    exact k.trans (raise_evolves _ _)
  · exact .of_eq rfl rfl rfl fun x n k => absurd k (h x n)

theorem openGate_evolves (v : View) (b : Blocks) : Evolves b (openGate v b) := by
  unfold openGate
  have h : Evolves b { b with iw := { b.iw with gate := true, halt := false } } := .of_eq rfl rfl rfl fun _ _ h => h
  simp only
  split
  · next m hm => exact h.trans (issueGo_evolves v m _ fun x n k => by simp [hm] at k)
  · exact h

theorem closeGate_evolves (b : Blocks) : Evolves b (closeGate b) := by
  unfold closeGate closeGateIw
  split
  · exact .of_eq rfl rfl rfl fun _ _ h => h
  · exact .of_eq rfl rfl rfl fun _ _ h => h

theorem evaluateGate_evolves (v : View) (b : Blocks) : Evolves b (evaluateGate v b) :=
  .ite (.ite (.refl b) (openGate_evolves v b)) (.ite (closeGate_evolves b) (.refl b))

/-! ### The whole -/

theorem settleRound_evolves (v : View) (b : Blocks) : Evolves b (settleRound v b) :=
  (((evaluateIfDue_evolves v b).trans (upkeepRequest_evolves _)).trans (evaluateLoad_evolves v _)).trans
    (evaluateGate_evolves v _)

theorem settleRounds_evolves (v : View) (n : Nat) : ∀ b, Evolves b (settleRounds v n b) := by
  induction n with
  | zero => exact .refl
  | succ n ih => exact fun b => (settleRound_evolves v b).trans (.ite (ih _) (.refl _))

/-- The evaluations leave the core, the Dispatch Queue's steps, the notices raised so far and an insertion in test. -/
theorem settle_evolves (v : View) (b : Blocks) : Evolves b (settle v b) := by
  unfold settle
  exact settleRounds_evolves v _ b

theorem keepParkTimer_evolves (v : View) (b : Blocks) : Evolves b (keepParkTimer v b) :=
  .of_eq rfl rfl rfl fun _ _ h => h

theorem Evolves.leaving {b c : Blocks} (h : Evolves b c) : c.du.leaving = b.du.leaving := by
  have k := congrArg (fun x : Blocks => x.du.leaving) h.core
  exact k

theorem Evolves.cu {b c : Blocks} (h : Evolves b c) : c.cu = b.cu := by
  have k := congrArg (fun x : Blocks => x.cu) h.core
  exact k

theorem Evolves.station {b c : Blocks} (h : Evolves b c) : c.station = b.station := by
  have k := congrArg (fun x : Blocks => x.pu.station) h.core
  exact k

theorem Evolves.reported {b c : Blocks} (h : Evolves b c) {n : Notice} (r : b.reported n) : c.reported n :=
  r.elim (fun x => .inl (h.notices.subset x)) fun x => .inr (h.lost x)

/-- The end of a command evolves the blocks unless a LEAVE sequence is in progress (R34). -/
theorem finish_evolves (v : View) (b : Blocks) (h : b.du.leaving = false) : Evolves b (finish v b) := by
  unfold finish completeLeave leaveComplete
  have s := settle_evolves v b
  rw [s.leaving, h]
  exact s.trans (keepParkTimer_evolves v _)

end Sys2Proof.Machine
end

