-- ==== Sys2Proof/Laws/Choices.lean ====
section
/-! SUPPORT. What the grants of the Send Queue can do (R9), what it means that an entry's step is this station's (R88),
what an ended kit request leaves (R105), the Dispatch Queue in OFFLINE (R129), and when no STEP TALLY is built (R52): one
lemma each, to be cited instead of the definitions. -/

namespace Sys2Proof.Machine

/-- The replica shows an entry's step CLAIMED by or RUNNING at this station (R88). -/
theorem stillMine_iff (v : View) (e : QueueEntry) :
    stillMine v e = true ↔ ∃ z n, v.rep.step? e.lot e.step = some z ∧
      (z.state = .claimed v.id n ∨ ∃ kit, z.state = .running v.id kit n) := by
  unfold stillMine
  cases v.rep.step? e.lot e.step with
  | none => simp
  | some z =>
    obtain ⟨sp, st⟩ := z
    cases st <;> simp [StepState.heldBy, StepState.claimedBy, StepState.runningAt]

theorem mem_insertEntry (e x : SendEntry) (q : List SendEntry) : x ∈ insertEntry e q ↔ x = e ∨ x ∈ q := by
  induction q with
  | nil => simp [insertEntry]
  | cons y ys ih =>
    unfold insertEntry
    split <;> simp_all [or_left_comm]

theorem insertEntry_length (e : SendEntry) (q : List SendEntry) : (insertEntry e q).length = q.length + 1 := by
  induction q with
  | nil => rfl
  | cons y ys ih =>
    unfold insertEntry
    split <;> simp_all

/-- The offer granted next is one that waits (R9). -/
theorem nextOffer_mem (w : List SendEntry) (e : SendEntry) (h : nextOffer w = some e) : e ∈ w := by
  induction w generalizing e with
  | nil => simp [nextOffer] at h
  | cons y ys ih =>
    unfold nextOffer at h
    split at h
    · rename_i f hf
      split at h
      · exact List.mem_cons_of_mem _ (ih _ (by simp_all))
      · simp_all
    · simp_all

theorem nextOffer_none (w : List SendEntry) : nextOffer w = none ↔ w = [] := by
  cases w with
  | nil => simp [nextOffer]
  | cons y ys =>
    simp only [nextOffer, reduceCtorEq, iff_false]
    split
    · split <;> simp
    · simp

/-- A grant moves one offer into the queue, while there is one and the queue has room (R9). -/
theorem grantOne_length (lc : LinkController) :
    (grantOne lc).queue.length
        = lc.queue.length + (if lc.queue.length < Config.maxSend ∧ lc.waiting ≠ [] then 1 else 0) ∧
      (grantOne lc).waiting.length
        = lc.waiting.length - (if lc.queue.length < Config.maxSend ∧ lc.waiting ≠ [] then 1 else 0) := by
  unfold grantOne
  split
  · rename_i h
    split
    · rename_i e he
      have hm := nextOffer_mem _ _ he
      have hw : lc.waiting ≠ [] := by
        intro hn
        simp [hn] at hm
      simp [h, hw, insertEntry_length, List.length_erase_of_mem hm]
    · rename_i hn
      simp [(nextOffer_none _).mp hn]
  · rename_i h
    simp [h]

/-- A request that ends is gone (R105). -/
theorem endRequest_request (b : Blocks) : (endRequest b).hr.request = none := by
  unfold endRequest
  split
  · rfl
  · assumption

/-- No entry is left in the Dispatch Queue at entry to OFFLINE (R129). -/
@[simp] theorem emptyDispatchQueue_queue (v : View) (b : Blocks) : (emptyDispatchQueue v b).du.queue = [] := rfl

/-- With an empty Dispatch Queue no pair is wanted, so a LOAD or VERIFY of a slot's program is aborted (R126, R129). -/
theorem abortUnwanted_empty (v : View) (b : Blocks) (h : b.du.queue = []) (op : Operation) (slot : Slot)
    (ho : (abortUnwanted v b).le.op = some op) (hs : op.slot = some slot)
    (hp : (b.le.slot slot).pair? ≠ none) : op.kind = .swap ∨ op.kind = .purge := by
  have hw : ∀ p, wanted v b p = false := fun p => by simp [wanted, h]
  unfold abortUnwanted at ho
  simp only [hw] at ho
  cases hb : b.le.op with
  | none => simp_all
  | some o =>
    obtain ⟨k, s, t⟩ := o
    cases k <;> cases s <;> simp only [hb] at ho
    all_goals first
      | (obtain rfl := Option.some.inj ho; simp_all)
      | (split at ho
         · simp at ho
           right
           simp [abortOp, sendDirective, setOp] at ho
           rw [← ho]
         · obtain rfl := Option.some.inj (hb.symm.trans ho)
           simp_all)

/-- No STEP TALLY is built of counts that do not balance (R52). -/
theorem enqueueTally_unbalanced (v : View) (lot : Nat) (b : Blocks) (h : b.iw.counters.balanced = false) :
    enqueueTally v lot b = b := by simp [enqueueTally, h]

/-- Taking back that a lot was spent leaves the entries and their order. -/
theorem unmarkSpent_steps (v : View) (b : Blocks) : (unmarkSpent v b).steps = b.steps := by
  simp only [unmarkSpent, Blocks.steps, List.map_map]
  refine List.map_congr_left fun e _ => ?_
  simp only [Function.comp, unmarkIfShown]
  split <;> rfl

end Sys2Proof.Machine
end

