-- ==== Sys2Proof/Laws/Hearing.lean ====
section
/-! SUPPORT. What the end of a frame by which a state frame is heard does to the Replica Engine (R7, R15, R37): one
lemma, `frameEnd_re`, to be cited instead of the hearing's definitions. -/

namespace Sys2Proof.Machine

/-- The Catch-up Unit does nothing of its own on a state frame (R63 to R71). -/
theorem hearCatchUp_state (h : Heard) (s : State) (hs : h.body.isState = true) : hearCatchUp h s = s := by
  unfold hearCatchUp
  split
  · simp_all [FrameBody.isState, FrameBody.kind]
  · simp_all [FrameBody.isState, FrameBody.kind]
  · split
    · unfold referenceHeard
      split <;> simp_all [FrameBody.isState, FrameBody.kind]
    · rfl

/-- A Peer Table record written replaces that of its station alone (R24). -/
theorem find_setPeer (r : PeerRec) (n : Nat) (ps : List PeerRec) :
    (setPeer r ps).find? (fun x => x.id == n) = if r.id = n then some r else ps.find? fun x => x.id == n := by
  induction ps with
  | nil => by_cases h : r.id = n <;> simp [setPeer, h]
  | cons x xs ih =>
    unfold setPeer
    by_cases h : r.id = n
    · split
      · simp [h]
      · split
        · simp [h]
        · next h1 h2 =>
          have : x.id ≠ n := by intro k; simp_all
          simp_all
    · split
      · next h1 =>
        have : x.id ≠ n := by intro k; simp_all
        simp_all
      · split
        · simp [h, List.find?_cons]
        · simp_all [List.find?_cons]

/-- The Peer Table and the attempt phase are left alone. -/
def SamePeers (b c : Blocks) : Prop := c.pu.peers = b.pu.peers ∧ c.cu.phase = b.cu.phase

theorem SamePeers.refl (b : Blocks) : SamePeers b b := ⟨rfl, rfl⟩

theorem SamePeers.trans {a b c : Blocks} (h : SamePeers a b) (k : SamePeers b c) : SamePeers a c :=
  ⟨k.1.trans h.1, k.2.trans h.2⟩

theorem SamePeers.ite {p : Prop} [Decidable p] {a b c : Blocks} (h : SamePeers a b) (k : SamePeers a c) :
    SamePeers a (if p then b else c) := by split <;> assumption

theorem offer_same (body : FrameBody) (t : Nat) (o : Owner) (h : Bool) (b : Blocks) :
    SamePeers b (offer body t o h b) := .ite ⟨rfl, rfl⟩ ⟨rfl, rfl⟩

theorem autoHold_same (v : View) (t : HoldTarget) (l : Level) (r : Reason) (b : Blocks) :
    SamePeers b (autoHold v t l r b) :=
  .ite (.ite ⟨rfl, rfl⟩ ⟨rfl, rfl⟩) (.ite (.refl b) (.ite ⟨rfl, rfl⟩ (SamePeers.trans ⟨rfl, rfl⟩ (offer_same ..))))

theorem retryHolds_same (v : View) : ∀ (ps : List PendingHold) (b : Blocks), SamePeers b (retryHolds v ps b)
  | [], b => .refl b
  | _ :: ps, b => (autoHold_same v _ _ _ b).trans (retryHolds_same v ps _)

theorem enqueueGives_same : ∀ (ks : List Nat) (b : Blocks), SamePeers b (enqueueGives ks b)
  | [], b => .refl b
  | _ :: ks, b => SamePeers.trans (SamePeers.ite (.refl b) (offer_same ..)) (enqueueGives_same ks _)

theorem reofferTake_same (b : Blocks) : SamePeers b (reofferTake b) := by
  unfold reofferTake
  split
  · split
    · exact .ite (.refl b) (offer_same ..)
    · exact .refl b
  · exact .refl b

theorem reofferTally_same (b : Blocks) : SamePeers b (reofferTally b) := by
  unfold reofferTally
  split
  · exact SamePeers.trans (b := { b with iw := { b.iw with tallyOwed := none } }) ⟨rfl, rfl⟩ (offer_same ..)
  · exact .refl b

theorem reofferOwed_same (v : View) (b : Blocks) : SamePeers b (reofferOwed v b) :=
  (((enqueueGives_same _ b).trans (reofferTake_same _)).trans (reofferTally_same _)).trans
    (SamePeers.trans ⟨rfl, rfl⟩ (retryHolds_same v _ _))

theorem leaveMembership_same (b : Blocks) : SamePeers b (leaveMembership b) := by
  unfold leaveMembership endSession
  split <;> exact ⟨rfl, rfl⟩

theorem clearReleases_same (b : Blocks) : SamePeers b { b with du := { b.du with releases := [] } } := ⟨rfl, rfl⟩

/-- A change of station state leaves the Peer Table and the attempt phase. -/
theorem enterState_same (v : View) (st : StationState) (b : Blocks) : SamePeers b (enterState v st b) := by
  refine SamePeers.trans ?_ (⟨rfl, rfl⟩ : SamePeers _ (markDue _))
  refine SamePeers.trans ?_ (SamePeers.ite (reofferOwed_same v _) (.refl _))
  refine SamePeers.trans ?_ (SamePeers.ite (.refl _) (clearReleases_same _))
  refine SamePeers.trans ?_ (SamePeers.ite (leaveMembership_same _) (.refl _))
  exact SamePeers.trans ⟨rfl, rfl⟩ (SamePeers.ite (offer_same ..) (.refl _))

/-- The Presence Unit, hearing a peer's state frame, leaves the attempt phase and every recorded authority (R24,
R54). -/
theorem hearPeer_state (v : View) (h : Heard) (b : Blocks) (hs : h.body.isState = true) :
    (hearPeer v h b).cu.phase = b.cu.phase ∧
      ∀ n, (hearPeer v h b).pu.authorityOf n = b.pu.authorityOf n := by
  have key : ∀ c : Blocks, SamePeers b c →
      c.cu.phase = b.cu.phase ∧ ∀ n, c.pu.authorityOf n = b.pu.authorityOf n := by
    rintro c ⟨h1, h2⟩
    exact ⟨h2, fun n => by simp [PresenceUnit.authorityOf, PresenceUnit.peer, h1]⟩
  unfold hearPeer
  split
  · exact key _ (.ite (.refl b) ⟨rfl, rfl⟩)
  · split
    · have hb : beaconAfter h.body (b.pu.peer h.sender).beacon = (b.pu.peer h.sender).beacon := by
        unfold beaconAfter
        split <;> simp_all [FrameBody.isState, FrameBody.kind]
      have hh : SamePeers (recordPeer h.sender h.body b) (heardListening v (recordPeer h.sender h.body b)) :=
        .ite (SamePeers.trans ⟨rfl, rfl⟩ (enterState_same ..)) (.refl _)
      have hr : (recordPeer h.sender h.body b).cu.phase = b.cu.phase ∧
          (recordPeer h.sender h.body b).pu.peers
            = setPeer ⟨h.sender, .present, some 0, (b.pu.peer h.sender).beacon⟩ b.pu.peers := by
        unfold recordPeer raiseIf
        simp only [hb]
        split <;> exact ⟨rfl, rfl⟩
      have hk : (heardListening v (recordPeer h.sender h.body b)).cu.phase = b.cu.phase ∧
          ∀ n, (heardListening v (recordPeer h.sender h.body b)).pu.authorityOf n = b.pu.authorityOf n := by
        refine ⟨hh.2.trans hr.1, fun n => ?_⟩
        simp only [PresenceUnit.authorityOf, PresenceUnit.peer, hh.1, hr.2, find_setPeer]
        by_cases e : h.sender = n
        · subst e
          simp
        · simp [e]
      simp only
      split
      · simp_all [FrameBody.isState, FrameBody.kind]
      · exact hk
    · exact key _ (.refl b)

/-- A state frame handed to the blocks while no snapshot is received is applied by the Replica Engine (R7, R37). -/
theorem hear_re (h : Heard) (s : State) (hs : h.body.isState = true) (hp : s.blocks.cu.phase ≠ .receiving) :
    (hear h s).re =
      s.re.apply (if h.own then s.config.authority else s.blocks.pu.authorityOf h.sender) h.sender h.body := by
  unfold hear
  rw [hearCatchUp_state _ _ hs]
  unfold hearState
  rw [if_pos hs]
  cases ho : h.own with
  | true =>
    simp [hp, applyHeard, authorityFor]
  | false =>
    have hk := hearPeer_state s.view h s.blocks hs
    simp [hk.1, hp, applyHeard, authorityFor, hk.2]

/-- The end of a frame by which a state frame is heard applies it (R7, R15, R37). -/
theorem frameEnd_re {s : State} {r : Reception} {sender : Nat} {auth : Level} {body : FrameBody}
    (h : s.Hearing r sender auth body) :
    ∃ t, exec (.frameEnd r) s = .next t ∧ t.re = s.re.apply auth sender body := by
  refine ⟨_, rfl, ?_⟩
  cases h with
  | own x sent online isState notBuffering =>
    have hsn : ∀ b, snapSent x.body x.target b = b := by
      intro b
      unfold snapSent
      split
      · split <;> simp_all [FrameBody.isState, FrameBody.kind]
      · rfl
    have h1 : (s.mapBlocks fun _ b => sentEntry x b).blocks.station = s.blocks.station := by
      simp [sentEntry, hsn, endTx, Blocks.station]
    have h2 : (s.mapBlocks fun _ b => sentEntry x b).blocks.cu = s.blocks.cu := by
      simp [sentEntry, hsn, endTx]
    have h3 : ((s.mapBlocks fun _ b => sentEntry x b).blocks.station == .offline) = false := by
      rw [h1]
      simpa using online
    unfold frameEnd
    rw [sent]
    simp only [if_true, State.finish_re]
    unfold ownFrameEnd
    simp only [h3]
    have := hear_re ⟨s.stationId, x.target, true, x.body⟩ (s.mapBlocks fun _ b => sentEntry x b) isState
      (by rw [h2]; exact notBuffering)
    simpa using this
  | peer _ f _ receiving reads good online isState notBuffering =>
    have hm : s.blocks.lc.tx = none := receiving
    unfold frameEnd
    rw [hm]
    simp only [reads, State.finish_re]
    unfold peerFrameEnd
    have h3 : ((s.mapBlocks fun _ b => endTx (mediumAfter (some f) r) b).blocks.station == .offline) = false := by
      simpa [endTx, Blocks.station] using online
    simp only [good, h3]
    have := hear_re ⟨f.sender.toNat, f.target.toNat, false, body⟩
      (s.mapBlocks fun _ b => endTx (mediumAfter (some f) r) b) isState (by simpa [endTx] using notBuffering)
    simpa [endTx] using this

end Sys2Proof.Machine
end

