-- ==== Sys2Proof/WellFormed.lean ====
section
/-! DEFINITION. Which commands the wires can carry: every operand within the width its port gives it (12.1, 12.2,
12.3), and a request type that names no request where the row says so. exec itself is total on every operand. -/

namespace Sys2Proof

/-- A value that fits `n` bytes. -/
def fitsBytes (n v : Nat) : Bool := v < 256 ^ n

/-- A station ID of a peer or of this station (section 6 of the scope file: 1 to 62). -/
def isStationId (s : Nat) : Bool := 1 ≤ s && s ≤ 62

/-- The step record of a POST LOT request fits its 13 bytes (12.2). -/
def StepFields.wf (f : StepFields) : Bool :=
  fitsBytes 2 f.program && fitsBytes 1 f.revision && fitsBytes 2 f.blocks && fitsBytes 1 f.band && fitsBytes 1 f.family

/-- The fields of a POST LOT request fit their widths; the count byte bounds the number of steps (12.2, R181). -/
def LotFields.wf (f : LotFields) : Bool :=
  fitsBytes 4 f.lot && fitsBytes 2 f.device && fitsBytes 2 f.posted && fitsBytes 1 f.lostAllowance
    && fitsBytes 1 f.steps.length && f.steps.all StepFields.wf

/-- The fields of a CONFIGURE request fit their widths (12.2). -/
def ConfigFields.wf (f : ConfigFields) : Bool :=
  fitsBytes 1 f.authority && fitsBytes 1 f.siteCount && fitsBytes 1 f.queueLimit && fitsBytes 2 f.beaconInterval
    && fitsBytes 1 f.bidUnit && fitsBytes 1 f.parkTimeout && fitsBytes 1 f.loadRetry && fitsBytes 2 f.blockTimeout
    && fitsBytes 1 f.attemptLimit && fitsBytes 1 f.failLimit && fitsBytes 1 f.windowSize
    && fitsBytes 1 f.windowFailLimit && fitsBytes 1 f.tripLimit && fitsBytes 1 f.insertionTimeout
    && fitsBytes 1 f.keepOnSoftReset

/-- The payload of a received frame fits the 7-bit length field (R2). -/
def Reception.wf : Reception → Bool
  | .own => true
  | .cut => true
  | .whole f => f.payload.length < 128
  | .levels _ => true

/-- A command the ports can carry. -/
def WellFormed : Instr → Bool
  | .powerOnReset _ => true
  | .pinReset _ => true
  | .softReset _ => true
  | .transmitStart => true
  | .arbitrationLost => true
  | .transmitFault => true
  | .frameEnd r => r.wf
  | .listenTimerExpiry => true
  | .beaconTimerExpiry => true
  | .silenceTimerExpiry peer => isStationId peer
  | .parkTimerExpiry => true
  | .answerTimerExpiry => true
  | .deferTimerExpiry => true
  | .snapshotTimerExpiry => true
  | .retryTimerExpiry => true
  | .deferenceTimerExpiry lot step => fitsBytes 4 lot && fitsBytes 1 step
  | .blockTimeout => true
  | .verifyTimeout => true
  | .swapTimeout => true
  | .purgeTimeout => true
  | .blockOk slot n => fitsBytes 1 slot && fitsBytes 1 n
  | .blockBad slot n cause => fitsBytes 1 slot && fitsBytes 1 n && fitsBytes 1 cause
  | .loadEnd slot => fitsBytes 1 slot
  | .verifyResult slot _ => fitsBytes 1 slot
  | .swapDone => true
  | .purgeDone slot => fitsBytes 1 slot
  | .testerMessageDiscard _ => true
  | .testerByteTimeout => true
  | .seat _ => true
  | .verdict _ => true
  | .insertionTimeout => true
  | .cellLineMessage _ => true
  | .cellByteTimeout => true
  | .cellLineTransmit => true
  | .unknownRequest type payload => (type.toNat == 0 || 31 < type.toNat) && payload.length ≤ 2048
  | .configure f => f.wf
  | .join => true
  | .leave => true
  | .rejoin => true
  | .reset => true
  | .status => true
  | .readLot lot => fitsBytes 4 lot
  | .readHolds => true
  | .readKits => true
  | .readPeers => true
  | .readQueue => true
  | .readSites => true
  | .readSlots => true
  | .postLot f => f.wf
  | .withdrawLot lot => fitsBytes 4 lot
  | .resumeLot lot => fitsBytes 4 lot
  | .cede lot step => fitsBytes 4 lot && fitsBytes 1 step
  | .clearRefusals => true
  | .releaseConfirm lot => fitsBytes 4 lot
  | .placeHold scope _ level => fitsBytes 1 scope && fitsBytes 1 level
  | .liftHold origin serial => fitsBytes 1 origin && fitsBytes 1 serial
  | .kitAdd kit family limit => fitsBytes 1 kit && fitsBytes 1 family && fitsBytes 3 limit
  | .kitFound kit => fitsBytes 1 kit
  | .kitServiced kit => fitsBytes 1 kit
  | .kitRetire kit => fitsBytes 1 kit
  | .kitFitted kit => fitsBytes 1 kit
  | .kitRemoved kit => fitsBytes 1 kit
  | .bandChange band => fitsBytes 1 band
  | .bandReady band => fitsBytes 1 band
  | .endStep lot step => fitsBytes 4 lot && fitsBytes 1 step
  | .siteRestore site => fitsBytes 1 site

end Sys2Proof
end

