-- ==== Sys2Proof/Laws/PerInstr.lean ====
section
/-! SUPPORT. The family Wires, one lemma per command: the bytes that a host writes for a well-formed command of Table
11.1 are read by the receiver as the request that the command carries (12.2); any other command carries none. -/

namespace Sys2Proof.Laws

open Sys2Proof.Machine

theorem byte_toNat (n : Nat) (h : n < 256) : (byte n).toNat = n := by
  simp only [byte, BitVec.toNat_ofNat]
  omega

theorem byte_bits (b : Byte) : byte b.toNat = b := by
  simp [byte]

theorem beNat_two (n : Nat) (h : n < 256 ^ 2) : beNat [byte (n / 256), byte n] = n := by
  simp only [beNat, byte, List.foldl_cons, List.foldl_nil, BitVec.toNat_ofNat]
  omega

theorem beNat_three (n : Nat) (h : n < 256 ^ 3) : beNat [byte (n / 65536), byte (n / 256), byte n] = n := by
  simp only [beNat, byte, List.foldl_cons, List.foldl_nil, BitVec.toNat_ofNat]
  omega

theorem beNat_four (n : Nat) (h : n < 256 ^ 4) :
    beNat [byte (n / 16777216), byte (n / 65536), byte (n / 256), byte n] = n := by
  simp only [beNat, byte, List.foldl_cons, List.foldl_nil, BitVec.toNat_ofNat]
  omega

theorem beNat_bits16 (x : BitVec 16) :
    BitVec.ofNat 16 (beNat [byte (x.toNat / 256), byte x.toNat]) = x := by
  rw [beNat_two _ (by have := x.isLt; omega)]
  simp

theorem beNat_bits32 (x : BitVec 32) :
    BitVec.ofNat 32 (beNat [byte (x.toNat / 16777216), byte (x.toNat / 65536), byte (x.toNat / 256), byte x.toNat])
      = x := by
  rw [beNat_four _ (by have := x.isLt; omega)]
  simp

/-- The 13 bytes of a step record (12.2). -/
def stepBytes (f : StepFields) : List Byte :=
  [byte (f.program / 256), byte f.program, byte f.revision, byte (f.blocks / 256), byte f.blocks,
   byte (f.checksum.toNat / 16777216), byte (f.checksum.toNat / 65536), byte (f.checksum.toNat / 256),
   byte f.checksum.toNat, byte f.band, byte f.family, byte (f.passBins.toNat / 256), byte f.passBins.toNat]

theorem readSteps_written (fs : List StepFields) (h : fs.all StepFields.wf = true) :
    readSteps fs.length (fs.flatMap stepBytes) = some fs := by
  induction fs with
  | nil => rfl
  | cons f fs ih =>
    simp only [List.all_cons, Bool.and_eq_true, StepFields.wf, fitsBytes, decide_eq_true_eq] at h
    obtain ⟨⟨⟨⟨⟨hp, hr⟩, hb⟩, hd⟩, hf⟩, hs⟩ := h
    have ih' := ih (by simpa using hs)
    simp only [List.flatMap_cons, List.length_cons, stepBytes, List.cons_append, List.nil_append, readSteps, ih',
      Option.map_some, beNat_two _ hp, beNat_two _ hb, beNat_bits16, beNat_bits32, byte_toNat _ hr, byte_toNat _ hd,
      byte_toNat _ hf]

/-- The payload a host writes for a command of Table 11.1 (12.2). -/
def wirePayload : Instr → List Byte
  | .unknownRequest _ payload => payload
  | .configure f =>
    [byte f.authority, f.reachable, byte f.siteCount, byte f.queueLimit, byte (f.beaconInterval / 256),
     byte f.beaconInterval, byte f.bidUnit, byte f.parkTimeout, byte f.loadRetry, byte (f.blockTimeout / 256),
     byte f.blockTimeout, byte f.attemptLimit, byte f.failLimit, byte f.windowSize, byte f.windowFailLimit,
     byte (f.tripBins.toNat / 256), byte f.tripBins.toNat, byte f.tripLimit, byte f.insertionTimeout,
     byte f.keepOnSoftReset]
  | .readLot n => [byte (n / 16777216), byte (n / 65536), byte (n / 256), byte n]
  | .postLot f =>
    [byte (f.lot / 16777216), byte (f.lot / 65536), byte (f.lot / 256), byte f.lot, byte (f.device / 256),
     byte f.device, byte (f.posted / 256), byte f.posted, byte f.lostAllowance, byte f.steps.length]
      ++ f.steps.flatMap stepBytes
  | .withdrawLot n => [byte (n / 16777216), byte (n / 65536), byte (n / 256), byte n]
  | .resumeLot n => [byte (n / 16777216), byte (n / 65536), byte (n / 256), byte n]
  | .cede n k => [byte (n / 16777216), byte (n / 65536), byte (n / 256), byte n, byte k]
  | .releaseConfirm n => [byte (n / 16777216), byte (n / 65536), byte (n / 256), byte n]
  | .placeHold c t l =>
    [byte c, byte (t.toNat / 16777216), byte (t.toNat / 65536), byte (t.toNat / 256), byte t.toNat, byte l]
  | .liftHold o n => [byte o, byte n]
  | .kitAdd k f l => [byte k, byte f, byte (l / 65536), byte (l / 256), byte l]
  | .kitFound k => [byte k]
  | .kitServiced k => [byte k]
  | .kitRetire k => [byte k]
  | .kitFitted k => [byte k]
  | .kitRemoved k => [byte k]
  | .bandChange b => [byte b]
  | .bandReady b => [byte b]
  | .endStep n k => [byte (n / 16777216), byte (n / 65536), byte (n / 256), byte n, byte k]
  | .siteRestore n => [byte n]
  | _ => []

/-- A well-formed command is read from the bytes a host writes for it. -/
def Wires.Statement (i : Instr) : Prop :=
  WellFormed i = true → ∀ r, carried i = some r → requestOf (byte r.type) (wirePayload i) = r

/-- A command that carries no request. -/
theorem wires_none (i : Instr) (h : carried i = none) : Wires.Statement i := by
  intro _ r hr
  rw [h] at hr
  cases hr

/-- A request with no payload. -/
theorem wires_empty (i : Instr) (r : Request) (hc : carried i = some r) (hp : wirePayload i = [])
    (hr : requestOf (byte r.type) [] = r) : Wires.Statement i := by
  intro _ r' h
  rw [hc] at h
  cases h
  rw [hp, hr]

theorem Wires.powerOnReset (straps : BitVec 6) : Wires.Statement (.powerOnReset straps) := wires_none _ rfl

theorem Wires.pinReset (straps : BitVec 6) : Wires.Statement (.pinReset straps) := wires_none _ rfl

theorem Wires.softReset (straps : BitVec 6) : Wires.Statement (.softReset straps) := wires_none _ rfl

theorem Wires.transmitStart : Wires.Statement .transmitStart := wires_none _ rfl

theorem Wires.arbitrationLost : Wires.Statement .arbitrationLost := wires_none _ rfl

theorem Wires.transmitFault : Wires.Statement .transmitFault := wires_none _ rfl

theorem Wires.frameEnd (r : Reception) : Wires.Statement (.frameEnd r) := wires_none _ rfl

theorem Wires.listenTimerExpiry : Wires.Statement .listenTimerExpiry := wires_none _ rfl

theorem Wires.beaconTimerExpiry : Wires.Statement .beaconTimerExpiry := wires_none _ rfl

theorem Wires.silenceTimerExpiry (peer : Nat) : Wires.Statement (.silenceTimerExpiry peer) := wires_none _ rfl

theorem Wires.parkTimerExpiry : Wires.Statement .parkTimerExpiry := wires_none _ rfl

theorem Wires.answerTimerExpiry : Wires.Statement .answerTimerExpiry := wires_none _ rfl

theorem Wires.deferTimerExpiry : Wires.Statement .deferTimerExpiry := wires_none _ rfl

theorem Wires.snapshotTimerExpiry : Wires.Statement .snapshotTimerExpiry := wires_none _ rfl

theorem Wires.retryTimerExpiry : Wires.Statement .retryTimerExpiry := wires_none _ rfl

theorem Wires.deferenceTimerExpiry (lot step : Nat) : Wires.Statement (.deferenceTimerExpiry lot step) := wires_none _ rfl

theorem Wires.blockTimeout : Wires.Statement .blockTimeout := wires_none _ rfl

theorem Wires.verifyTimeout : Wires.Statement .verifyTimeout := wires_none _ rfl

theorem Wires.swapTimeout : Wires.Statement .swapTimeout := wires_none _ rfl

theorem Wires.purgeTimeout : Wires.Statement .purgeTimeout := wires_none _ rfl

theorem Wires.blockOk (slot n : Nat) : Wires.Statement (.blockOk slot n) := wires_none _ rfl

theorem Wires.blockBad (slot n cause : Nat) : Wires.Statement (.blockBad slot n cause) := wires_none _ rfl

theorem Wires.loadEnd (slot : Nat) : Wires.Statement (.loadEnd slot) := wires_none _ rfl

theorem Wires.verifyResult (slot : Nat) (isMatch : Bool) : Wires.Statement (.verifyResult slot isMatch) := wires_none _ rfl

theorem Wires.swapDone : Wires.Statement .swapDone := wires_none _ rfl

theorem Wires.purgeDone (slot : Nat) : Wires.Statement (.purgeDone slot) := wires_none _ rfl

theorem Wires.testerMessageDiscard (bytes : List Byte) : Wires.Statement (.testerMessageDiscard bytes) := wires_none _ rfl

theorem Wires.testerByteTimeout : Wires.Statement .testerByteTimeout := wires_none _ rfl

theorem Wires.seat (occupancy : SiteMask) : Wires.Statement (.seat occupancy) := wires_none _ rfl

theorem Wires.verdict (bins : BitVec 32) : Wires.Statement (.verdict bins) := wires_none _ rfl

theorem Wires.insertionTimeout : Wires.Statement .insertionTimeout := wires_none _ rfl

theorem Wires.cellLineMessage (bytes : List Byte) : Wires.Statement (.cellLineMessage bytes) := wires_none _ rfl

theorem Wires.cellByteTimeout : Wires.Statement .cellByteTimeout := wires_none _ rfl

theorem Wires.cellLineTransmit : Wires.Statement .cellLineTransmit := wires_none _ rfl

theorem Wires.unknownRequest (type : Byte) (payload : List Byte) : Wires.Statement (.unknownRequest type payload) := by
  intro h r hr
  cases hr
  have h : (type.toNat = 0 ∨ 31 < type.toNat) ∧ payload.length ≤ 2048 := by simpa [WellFormed] using h
  have e : requestOf type payload = .unknown type := by
    unfold requestOf
    rw [if_neg]
    simp only [Bool.and_eq_true, decide_eq_true_eq]
    omega
  have b : byte (Request.type (.unknown type)) = type := byte_bits type
  simp only [e, b, wirePayload]

theorem Wires.configure (f : ConfigFields) : Wires.Statement (.configure f) := by
  intro h r hr
  cases hr
  simp only [WellFormed, ConfigFields.wf, fitsBytes, Bool.and_eq_true, decide_eq_true_eq] at h
  obtain ⟨⟨⟨⟨⟨⟨⟨⟨⟨⟨⟨⟨⟨⟨h1, h2⟩, h3⟩, h4⟩, h5⟩, h6⟩, h7⟩, h8⟩, h9⟩, h10⟩, h11⟩, h12⟩, h13⟩, h14⟩, h15⟩ := h
  have e : readConfigure (wirePayload (.configure f)) = some (.configure f) := by
    simp only [wirePayload, readConfigure, beNat_bits16, beNat_two _ h4, beNat_two _ h8, byte_toNat _ h1,
      byte_toNat _ h2, byte_toNat _ h3, byte_toNat _ h5, byte_toNat _ h6, byte_toNat _ h7, byte_toNat _ h9,
      byte_toNat _ h10, byte_toNat _ h11, byte_toNat _ h12, byte_toNat _ h13, byte_toNat _ h14, byte_toNat _ h15]
  show (readConfigure (wirePayload (.configure f))).getD (.badSize 1) = _
  rw [e]
  rfl

theorem Wires.join : Wires.Statement .join := wires_empty _ _ rfl rfl rfl

theorem Wires.leave : Wires.Statement .leave := wires_empty _ _ rfl rfl rfl

theorem Wires.rejoin : Wires.Statement .rejoin := wires_empty _ _ rfl rfl rfl

theorem Wires.reset : Wires.Statement .reset := wires_empty _ _ rfl rfl rfl

theorem Wires.status : Wires.Statement .status := wires_empty _ _ rfl rfl rfl

theorem Wires.readLot (lot : Nat) : Wires.Statement (.readLot lot) := by
  intro h r hr
  cases hr
  have h : lot < 256 ^ 4 := by simpa [WellFormed, fitsBytes] using h
  show Request.readLot (beNat _) = _
  rw [beNat_four _ h]

theorem Wires.readHolds : Wires.Statement .readHolds := wires_empty _ _ rfl rfl rfl

theorem Wires.readKits : Wires.Statement .readKits := wires_empty _ _ rfl rfl rfl

theorem Wires.readPeers : Wires.Statement .readPeers := wires_empty _ _ rfl rfl rfl

theorem Wires.readQueue : Wires.Statement .readQueue := wires_empty _ _ rfl rfl rfl

theorem Wires.readSites : Wires.Statement .readSites := wires_empty _ _ rfl rfl rfl

theorem Wires.readSlots : Wires.Statement .readSlots := wires_empty _ _ rfl rfl rfl

theorem Wires.postLot (f : LotFields) : Wires.Statement (.postLot f) := by
  intro h r hr
  cases hr
  simp only [WellFormed, LotFields.wf, fitsBytes, Bool.and_eq_true, decide_eq_true_eq] at h
  obtain ⟨⟨⟨⟨⟨hl, hd⟩, hu⟩, ha⟩, hn⟩, hs⟩ := h
  have e : readPostLot (wirePayload (.postLot f)) = some (.postLot f) := by
    simp only [wirePayload, List.cons_append, List.nil_append, readPostLot, byte_toNat _ hn, readSteps_written _ hs,
      Option.map_some, beNat_four _ hl, beNat_two _ hd, beNat_two _ hu, byte_toNat _ ha]
  show (readPostLot (wirePayload (.postLot f))).getD (.badSize 14) = _
  rw [e]
  rfl

theorem Wires.withdrawLot (lot : Nat) : Wires.Statement (.withdrawLot lot) := by
  intro h r hr
  cases hr
  have h : lot < 256 ^ 4 := by simpa [WellFormed, fitsBytes] using h
  show Request.withdrawLot (beNat _) = _
  rw [beNat_four _ h]

theorem Wires.resumeLot (lot : Nat) : Wires.Statement (.resumeLot lot) := by
  intro h r hr
  cases hr
  have h : lot < 256 ^ 4 := by simpa [WellFormed, fitsBytes] using h
  show Request.resumeLot (beNat _) = _
  rw [beNat_four _ h]

theorem Wires.cede (lot step : Nat) : Wires.Statement (.cede lot step) := by
  intro h r hr
  cases hr
  have h : lot < 256 ^ 4 ∧ step < 256 := by simpa [WellFormed, fitsBytes] using h
  show Request.cede (beNat _) (byte step).toNat = _
  rw [beNat_four _ h.1, byte_toNat _ h.2]

theorem Wires.clearRefusals : Wires.Statement .clearRefusals := wires_empty _ _ rfl rfl rfl

theorem Wires.releaseConfirm (lot : Nat) : Wires.Statement (.releaseConfirm lot) := by
  intro h r hr
  cases hr
  have h : lot < 256 ^ 4 := by simpa [WellFormed, fitsBytes] using h
  show Request.releaseConfirm (beNat _) = _
  rw [beNat_four _ h]

theorem Wires.placeHold (scope : Nat) (target : BitVec 32) (level : Nat) : Wires.Statement (.placeHold scope target level) := by
  intro h r hr
  cases hr
  have h : scope < 256 ∧ level < 256 := by simpa [WellFormed, fitsBytes] using h
  show Request.placeHold (byte scope).toNat (BitVec.ofNat 32 (beNat _)) (byte level).toNat = _
  rw [beNat_bits32, byte_toNat _ h.1, byte_toNat _ h.2]

theorem Wires.liftHold (origin serial : Nat) : Wires.Statement (.liftHold origin serial) := by
  intro h r hr
  cases hr
  have h : origin < 256 ∧ serial < 256 := by simpa [WellFormed, fitsBytes] using h
  show Request.liftHold (byte origin).toNat (byte serial).toNat = _
  rw [byte_toNat _ h.1, byte_toNat _ h.2]

theorem Wires.kitAdd (kit family limit : Nat) : Wires.Statement (.kitAdd kit family limit) := by
  intro h r hr
  cases hr
  have h : (kit < 256 ∧ family < 256) ∧ limit < 256 ^ 3 := by simpa [WellFormed, fitsBytes] using h
  show Request.kitAdd (byte kit).toNat (byte family).toNat (beNat _) = _
  rw [byte_toNat _ h.1.1, byte_toNat _ h.1.2, beNat_three _ h.2]

theorem Wires.kitFound (kit : Nat) : Wires.Statement (.kitFound kit) := by
  intro h r hr
  cases hr
  have h : kit < 256 := by simpa [WellFormed, fitsBytes] using h
  show Request.kitFound (byte kit).toNat = _
  rw [byte_toNat _ h]

theorem Wires.kitServiced (kit : Nat) : Wires.Statement (.kitServiced kit) := by
  intro h r hr
  cases hr
  have h : kit < 256 := by simpa [WellFormed, fitsBytes] using h
  show Request.kitServiced (byte kit).toNat = _
  rw [byte_toNat _ h]

theorem Wires.kitRetire (kit : Nat) : Wires.Statement (.kitRetire kit) := by
  intro h r hr
  cases hr
  have h : kit < 256 := by simpa [WellFormed, fitsBytes] using h
  show Request.kitRetire (byte kit).toNat = _
  rw [byte_toNat _ h]

theorem Wires.kitFitted (kit : Nat) : Wires.Statement (.kitFitted kit) := by
  intro h r hr
  cases hr
  have h : kit < 256 := by simpa [WellFormed, fitsBytes] using h
  show Request.kitFitted (byte kit).toNat = _
  rw [byte_toNat _ h]

theorem Wires.kitRemoved (kit : Nat) : Wires.Statement (.kitRemoved kit) := by
  intro h r hr
  cases hr
  have h : kit < 256 := by simpa [WellFormed, fitsBytes] using h
  show Request.kitRemoved (byte kit).toNat = _
  rw [byte_toNat _ h]

theorem Wires.bandChange (band : Nat) : Wires.Statement (.bandChange band) := by
  intro h r hr
  cases hr
  have h : band < 256 := by simpa [WellFormed, fitsBytes] using h
  show Request.bandChange (byte band).toNat = _
  rw [byte_toNat _ h]

theorem Wires.bandReady (band : Nat) : Wires.Statement (.bandReady band) := by
  intro h r hr
  cases hr
  have h : band < 256 := by simpa [WellFormed, fitsBytes] using h
  show Request.bandReady (byte band).toNat = _
  rw [byte_toNat _ h]

theorem Wires.endStep (lot step : Nat) : Wires.Statement (.endStep lot step) := by
  intro h r hr
  cases hr
  have h : lot < 256 ^ 4 ∧ step < 256 := by simpa [WellFormed, fitsBytes] using h
  show Request.endStep (beNat _) (byte step).toNat = _
  rw [beNat_four _ h.1, byte_toNat _ h.2]

theorem Wires.siteRestore (site : Nat) : Wires.Statement (.siteRestore site) := by
  intro h r hr
  cases hr
  have h : site < 256 := by simpa [WellFormed, fitsBytes] using h
  show Request.siteRestore (byte site).toNat = _
  rw [byte_toNat _ h]

end Sys2Proof.Laws
end

