-- ==== Sys2Proof/Laws/Replica.lean ====
section
/-! SUPPORT. The tables of the replica looked up after each operation on them, and the application of a frame by whether
it takes effect (R42): the lemmas that the statements about heard frames come down to. -/

namespace Sys2Proof.Machine

/-- A table looked up by ID after the records of one ID have been changed in other fields. -/
theorem find?_updated {α : Type} (id : α → Nat) (f : α → α) (hf : ∀ x, id (f x) = id x) (k n : Nat) (xs : List α) :
    (xs.map fun x => if id x == k then f x else x).find? (fun x => id x == n)
      = (xs.find? fun x => id x == n).map fun x => if n = k then f x else x := by
  induction xs with
  | nil => rfl
  | cons x xs ih => by_cases hx : id x = k <;> by_cases hn : id x = n <;> simp_all

theorem updateLot_lot? (r : Replica) (k n : Nat) (f : LotRec → LotRec) (hf : ∀ l, (f l).lot = l.lot) :
    (r.updateLot k f).lot? n = (r.lot? n).map fun l => if n = k then f l else l :=
  find?_updated LotRec.lot f hf k n r.lots

theorem updateKit_kit? (r : Replica) (k n : Nat) (f : KitRec → KitRec) (hf : ∀ c, (f c).kit = c.kit) :
    (r.updateKit k f).kit? n = (r.kit? n).map fun c => if n = k then f c else c :=
  find?_updated KitRec.kit f hf k n r.kits

theorem removeLot_lot? (r : Replica) (k n : Nat) : (r.removeLot k).lot? n = if n = k then none else r.lot? n := by
  simp only [Replica.removeLot, Replica.lot?, List.find?_filter]
  split
  · subst n
    simp [List.find?_eq_none]
  · next h =>
    congr 1
    funext x
    by_cases hx : x.lot = n <;> simp [hx, h]

/-- A lot of a free ID added to the Lot Table (R48). -/
theorem insertLot_find? (l : LotRec) (n : Nat) (ls : List LotRec) (h : ls.find? (fun x => x.lot == l.lot) = none) :
    (insertLot l ls).find? (fun x => x.lot == n) = if n = l.lot then some l else ls.find? fun x => x.lot == n := by
  induction ls with
  | nil =>
    by_cases e : n = l.lot
    · simp [insertLot, e]
    · simp [insertLot, e, Ne.symm e]
  | cons x xs ih =>
    simp only [List.find?_cons] at h
    split at h
    · simp at h
    · unfold insertLot
      by_cases e : n = l.lot
      · subst e
        split <;> simp_all
      · have e' : (l.lot == n) = false := by simpa using fun k => e k.symm
        split
        · simp [List.find?_cons, e']
        · simp [List.find?_cons, ih h, e]

/-! ### Steps of a plan -/

theorem setStepState_getElem? (st : StepState) (k i : Nat) (p : List StepRec) :
    (setStepState st k p)[i]? = p[i]?.map fun x => if i + 1 = k then ⟨x.spec, st⟩ else x := by
  induction p generalizing k i with
  | nil => cases k <;> simp [setStepState]
  | cons y ys ih =>
    match k with
    | 0 => simp [setStepState]
    | 1 => cases i <;> simp [setStepState]
    | k + 2 => cases i <;> simp [setStepState, ih]

/-- The machine's change of one step is the one the statements speak of. -/
theorem setStep_eq_withStep (l : LotRec) (k : Nat) (st : StepState) : l.setStep k st = l.withStep k st := by
  have : setStepState st k l.plan = l.plan.mapIdx fun i x => if i + 1 = k then ⟨x.spec, st⟩ else x := by
    apply List.ext_getElem?
    intro i
    simp [setStepState_getElem?, List.getElem?_mapIdx]
  simp [LotRec.setStep, LotRec.withStep, this]

theorem withStep_step? (l : LotRec) (k j : Nat) (st : StepState) :
    (l.withStep k st).step? j = (l.step? j).map fun x => if j = k then ⟨x.spec, st⟩ else x := by
  cases j with
  | zero => simp [LotRec.step?]
  | succ j => simp [LotRec.step?, LotRec.withStep, List.getElem?_mapIdx]

/-! ### The hold history test, and the application of a frame (R42) -/

theorem tested_step? (l : LotRec) (r : Replica) (j : Nat) : (l.tested r).step? j = l.step? j := rfl

/-- The hold history test reads the Hold List alone. -/
theorem tested_congr {r r' : Replica} (h : r.holds = r'.holds) (l : LotRec) : l.tested r = l.tested r' := by
  simp [LotRec.tested, Replica.coveredLot, h]

theorem map_tested_congr {r r' : Replica} (h : r.holds = r'.holds) (o : Option LotRec) :
    o.map (fun l => l.tested r) = o.map fun l => l.tested r' := by
  cases o with
  | none => rfl
  | some l => simp [tested_congr h]

theorem testHistory_lot? (r : Replica) (n : Nat) : (testHistory r).lot? n = (r.lot? n).map fun l => l.tested r := by
  simp only [testHistory, Replica.lot?, LotRec.tested]
  rw [List.find?_map]
  rfl

/-- A frame with effect: its effect, then the hold history test. -/
theorem applyBody_effect {r : Replica} {a : Level} {sender : Nat} {body : FrameBody}
    (h : takesEffect r a sender body = true) : applyBody r a sender body = testHistory (effectOf r sender body) := by
  simp [applyBody, h]

/-- A frame without effect: the hold history test alone. -/
theorem applyBody_none {r : Replica} {a : Level} {sender : Nat} {body : FrameBody}
    (h : takesEffect r a sender body = false) : applyBody r a sender body = testHistory r := by
  simp [applyBody, h]

end Sys2Proof.Machine
end

