-- ==== Sys2Proof/Laws/Requests.lean ====
section
/-! SUPPORT. What a request does when it is taken at once: it is acted upon and its response placed (R173). -/

namespace Sys2Proof.Machine

theorem setCli_setCli (c d : CellLineInterface) (b : Blocks) : setCli c (setCli d b) = setCli c b := rfl

theorem setCli_self (b : Blocks) : setCli b.cli b = b := rfl

/-- A request offered to an empty FIFO is its only one (R173). -/
theorem offerRequest_empty (r : Request) (b : Blocks) (h : b.cli.fifo = []) :
    offerRequest r b = setCli { b.cli with fifo := [r] } b := by
  have h0 : (0 : Nat) < Config.maxFifo := by decide
  unfold offerRequest
  simp only [h, List.length_nil, h0, if_true, List.nil_append]

theorem cli_fifo_self (c : CellLineInterface) (h : c.fifo = []) : { c with fifo := [] } = c := by
  cases c
  simp_all

/-- A station that is not PARKED takes a request with nothing but its park timer restarted (R32, R33). -/
theorem wake_awake (v : View) (b : Blocks) (h : b.station ≠ .parked) :
    wake v b = { b with pu := { b.pu with parkTimer := b.pu.parkTimer.map fun _ => parkMs v } } := by
  have k : (b.station == StationState.parked) = false := by
    revert h
    cases b.station <;> simp
  unfold wake
  rw [k]
  rfl

/-- A request taken at once is acted upon and answered (R173). -/
theorem request_taken (s : State) (r : Request) (h : s.TakesAtOnce) :
    request r s = State.finish (State.respond (handle r s.taking).2 r.type (handle r s.taking).1.code
      (handle r s.taking).1.index (handle r s.taking).1.content) := by
  unfold request takeRequest
  have hc : canTake { s.blocks.cli with fifo := [r] } = true := by simp [canTake, h.resp, h.notAwaited]
  have hw : wake s.view (setCli { s.blocks.cli with fifo := [] } s.blocks) = s.taking.blocks := by
    rw [cli_fifo_self _ h.fifo, setCli_self, wake_awake _ _ h.notParked]
    rfl
  have e : State.mapBlocks (s.mapBlocks fun _ b => offerRequest r b) (fun v b =>
      wake v (setCli { b.cli with fifo := [] } b)) = s.taking := by
    simp only [State.mapBlocks, State.view, offerRequest_empty r _ h.fifo, setCli_setCli, setCli_cli] at hw ⊢
    rw [hw]
    rfl
  simp only [State.mapBlocks_blocks, offerRequest_empty r _ h.fifo, setCli_cli, hc, if_true] at e ⊢
  rw [e]
  rfl

end Sys2Proof.Machine
end

