-- ==== Sys2Proof/Tests/Slice0.lean ====
section
/-! SUPPORT. Tests: ill-formed commands that WellFormed refuses, bytes of the wires, and, for every statement with
hypotheses, concrete states and operands that meet them (test_meets_<statement>). -/

namespace Sys2Proof.Tests

open Sys2Proof.Machine

-- one theorem after another: many at once ask for more threads than the memory limit has stacks for
set_option Elab.async false

/-! ### Ill-formed commands -/

def fields : ConfigFields := ⟨0, 2, 4, 4, 200, 5, 30, 1, 500, 4, 6, 32, 8, 0, 10, 10, 0⟩
def stepFields : StepFields := ⟨11, 1, 2, 7, 2, 3, 2⟩
def lotFields : LotFields := ⟨700, 5, 10, 1, [stepFields]⟩

theorem test_wellformed_configure : WellFormed (.configure fields) = true := by decide +kernel
theorem test_wellformed_post : WellFormed (.postLot lotFields) = true := by decide +kernel
theorem test_wellformed_peers : WellFormed (.silenceTimerExpiry 1) && WellFormed (.silenceTimerExpiry 62) := by
  decide +kernel
theorem test_illformed_frame_end : WellFormed (.frameEnd (.whole ⟨1, 1, 63, List.replicate 128 0, 0⟩)) = false := by decide +kernel
theorem test_illformed_silence_0 : WellFormed (.silenceTimerExpiry 0) = false := by decide +kernel
theorem test_illformed_silence_63 : WellFormed (.silenceTimerExpiry 63) = false := by decide +kernel
theorem test_illformed_deference_lot : WellFormed (.deferenceTimerExpiry 4294967296 1) = false := by decide +kernel
theorem test_illformed_deference_step : WellFormed (.deferenceTimerExpiry 1 256) = false := by decide +kernel
theorem test_illformed_block_ok_slot : WellFormed (.blockOk 256 0) = false := by decide +kernel
theorem test_illformed_block_ok_block : WellFormed (.blockOk 1 256) = false := by decide +kernel
theorem test_illformed_block_bad_slot : WellFormed (.blockBad 256 0 0) = false := by decide +kernel
theorem test_illformed_block_bad_block : WellFormed (.blockBad 1 256 0) = false := by decide +kernel
theorem test_illformed_block_bad_cause : WellFormed (.blockBad 1 0 256) = false := by decide +kernel
theorem test_illformed_load_end : WellFormed (.loadEnd 256) = false := by decide +kernel
theorem test_illformed_verify_result : WellFormed (.verifyResult 256 true) = false := by decide +kernel
theorem test_illformed_purge_done : WellFormed (.purgeDone 256) = false := by decide +kernel
theorem test_illformed_unknown_type : WellFormed (.unknownRequest 31 []) = false := by decide +kernel
theorem test_illformed_unknown_length : WellFormed (.unknownRequest 0 (List.replicate 2049 0)) = false := by decide +kernel
theorem test_illformed_configure_authority : WellFormed (.configure { fields with authority := 256 }) = false := by decide +kernel
theorem test_illformed_configure_siteCount : WellFormed (.configure { fields with siteCount := 256 }) = false := by decide +kernel
theorem test_illformed_configure_queueLimit : WellFormed (.configure { fields with queueLimit := 256 }) = false := by decide +kernel
theorem test_illformed_configure_beaconInterval : WellFormed (.configure { fields with beaconInterval := 65536 }) = false := by decide +kernel
theorem test_illformed_configure_bidUnit : WellFormed (.configure { fields with bidUnit := 256 }) = false := by decide +kernel
theorem test_illformed_configure_parkTimeout : WellFormed (.configure { fields with parkTimeout := 256 }) = false := by decide +kernel
theorem test_illformed_configure_loadRetry : WellFormed (.configure { fields with loadRetry := 256 }) = false := by decide +kernel
theorem test_illformed_configure_blockTimeout : WellFormed (.configure { fields with blockTimeout := 65536 }) = false := by decide +kernel
theorem test_illformed_configure_attemptLimit : WellFormed (.configure { fields with attemptLimit := 256 }) = false := by decide +kernel
theorem test_illformed_configure_failLimit : WellFormed (.configure { fields with failLimit := 256 }) = false := by decide +kernel
theorem test_illformed_configure_windowSize : WellFormed (.configure { fields with windowSize := 256 }) = false := by decide +kernel
theorem test_illformed_configure_windowFailLimit : WellFormed (.configure { fields with windowFailLimit := 256 }) = false := by decide +kernel
theorem test_illformed_configure_tripLimit : WellFormed (.configure { fields with tripLimit := 256 }) = false := by decide +kernel
theorem test_illformed_configure_insertionTimeout : WellFormed (.configure { fields with insertionTimeout := 256 }) = false := by decide +kernel
theorem test_illformed_configure_keepOnSoftReset : WellFormed (.configure { fields with keepOnSoftReset := 256 }) = false := by decide +kernel
theorem test_illformed_read_lot : WellFormed (.readLot 4294967296) = false := by decide +kernel
theorem test_illformed_post_lot : WellFormed (.postLot { lotFields with lot := 4294967296 }) = false := by decide +kernel
theorem test_illformed_post_device : WellFormed (.postLot { lotFields with device := 65536 }) = false := by decide +kernel
theorem test_illformed_post_posted : WellFormed (.postLot { lotFields with posted := 65536 }) = false := by decide +kernel
theorem test_illformed_post_lostAllowance : WellFormed (.postLot { lotFields with lostAllowance := 256 }) = false := by decide +kernel
theorem test_illformed_post_step_count : WellFormed (.postLot { lotFields with steps := List.replicate 256 stepFields }) = false := by decide +kernel
theorem test_illformed_post_step_program : WellFormed (.postLot { lotFields with steps := [{ stepFields with program := 65536 }] }) = false := by decide +kernel
theorem test_illformed_post_step_revision : WellFormed (.postLot { lotFields with steps := [{ stepFields with revision := 256 }] }) = false := by decide +kernel
theorem test_illformed_post_step_blocks : WellFormed (.postLot { lotFields with steps := [{ stepFields with blocks := 65536 }] }) = false := by decide +kernel
theorem test_illformed_post_step_band : WellFormed (.postLot { lotFields with steps := [{ stepFields with band := 256 }] }) = false := by decide +kernel
theorem test_illformed_post_step_family : WellFormed (.postLot { lotFields with steps := [{ stepFields with family := 256 }] }) = false := by decide +kernel
theorem test_illformed_withdrawLot : WellFormed (.withdrawLot 4294967296) = false := by decide +kernel
theorem test_illformed_resumeLot : WellFormed (.resumeLot 4294967296) = false := by decide +kernel
theorem test_illformed_releaseConfirm : WellFormed (.releaseConfirm 4294967296) = false := by decide +kernel
theorem test_illformed_cede_lot : WellFormed (.cede 4294967296 1) = false := by decide +kernel
theorem test_illformed_cede_step : WellFormed (.cede 1 256) = false := by decide +kernel
theorem test_illformed_endStep_lot : WellFormed (.endStep 4294967296 1) = false := by decide +kernel
theorem test_illformed_endStep_step : WellFormed (.endStep 1 256) = false := by decide +kernel
theorem test_illformed_place_scope : WellFormed (.placeHold 256 0 1) = false := by decide +kernel
theorem test_illformed_place_level : WellFormed (.placeHold 1 0 256) = false := by decide +kernel
theorem test_illformed_lift_origin : WellFormed (.liftHold 256 1) = false := by decide +kernel
theorem test_illformed_lift_serial : WellFormed (.liftHold 1 256) = false := by decide +kernel
theorem test_illformed_kit_add_kit : WellFormed (.kitAdd 256 1 1) = false := by decide +kernel
theorem test_illformed_kit_add_family : WellFormed (.kitAdd 1 256 1) = false := by decide +kernel
theorem test_illformed_kit_add_limit : WellFormed (.kitAdd 1 1 16777216) = false := by decide +kernel
theorem test_illformed_kitFound : WellFormed (.kitFound 256) = false := by decide +kernel
theorem test_illformed_kitServiced : WellFormed (.kitServiced 256) = false := by decide +kernel
theorem test_illformed_kitRetire : WellFormed (.kitRetire 256) = false := by decide +kernel
theorem test_illformed_kitFitted : WellFormed (.kitFitted 256) = false := by decide +kernel
theorem test_illformed_kitRemoved : WellFormed (.kitRemoved 256) = false := by decide +kernel
theorem test_illformed_bandChange : WellFormed (.bandChange 256) = false := by decide +kernel
theorem test_illformed_bandReady : WellFormed (.bandReady 256) = false := by decide +kernel
theorem test_illformed_siteRestore : WellFormed (.siteRestore 256) = false := by decide +kernel

/-! ### A floor and a cell on it -/

def spec (p : Nat) : StepSpec := ⟨p, 1, 2, 7, .ambient, 3, 2⟩
def waitingLot : LotRec := ⟨100, 5, 50, 3, 7, false, false, none, false, [⟨spec 11, .waiting 50⟩, ⟨spec 12, .pending⟩]⟩
def completeLot : LotRec := ⟨200, 6, 50, 3, 7, true, false, some 7, false, [⟨spec 11, .tallied 7 9 50 48 1 1 20⟩]⟩
def runningLot : LotRec := ⟨300, 6, 50, 3, 7, false, false, none, false, [⟨spec 13, .running 7 9 50⟩, ⟨spec 12, .pending⟩]⟩
def claimedLot : LotRec := ⟨500, 6, 50, 3, 8, false, false, none, false, [⟨spec 15, .claimed 8 50⟩]⟩
def peerRunningLot : LotRec := ⟨600, 6, 50, 3, 8, false, false, none, false, [⟨spec 16, .running 8 10 50⟩]⟩
def otherOwnedLot : LotRec := ⟨700, 6, 50, 3, 7, false, false, some 8, false, [⟨spec 11, .tallied 8 9 50 48 1 1 20⟩]⟩

def floor : Replica where
  lots := [waitingLot, completeLot, runningLot, claimedLot, peerRunningLot, otherOwnedLot]
  holds := [⟨7, 3, .kit 12, .quality, .host⟩, ⟨8, 0, .device 99, .operator, .yield⟩]
  kits := [⟨9, 3, .at 7, 5, 100⟩, ⟨10, 3, .shelf, 0, 10⟩, ⟨11, 4, .stranded 8, 0, 10⟩, ⟨12, 3, .at 8, 10, 10⟩]
  ring := [1, 2]

def peers : List PeerRec :=
  [⟨3, .present, some 801, some ⟨.active, .operator, 20, 41, 9, 0, none, .ambient, false⟩⟩,
   ⟨8, .present, some 2, some ⟨.parked, .quality, 20, 42, 9, 0, none, .ambient, false⟩⟩, ⟨12, .absent, none, none⟩]

def sites : List SiteRec :=
  [⟨.enabled, 2, 1⟩, ⟨.masked, 0, 2⟩, ⟨.masked, 0, 3⟩, ⟨.retired, 0, 3⟩, .fresh, .fresh, .fresh, .fresh]

/-- Station 7 in a station state, on the floor above, with a Send Queue and a Dispatch Queue. -/
def cell (st : StationState) (q : List SendEntry := []) (dq : List QueueEntry := []) : State :=
  { State.reset with
    stationId := 7
    config := { ConfigRecord.default with siteCount := 5, reachable := 3 }
    re := ⟨floor, 42, floor.digest⟩
    blocks := { State.reset.blocks with
      lc := ⟨q, [], .idle, none, 5⟩
      pu := ⟨st, peers, some 3, none, none, false, false⟩
      du := { State.reset.blocks.du with queue := dq }
      hr := ⟨some 9, .ambient, true, none, []⟩
      iw := { State.reset.blocks.iw with sites := sites } } }

def entry (b : FrameBody) (o : Owner) : SendEntry := ⟨b, 63, o, false, 0, false, false⟩
def queued (l k : Nat) (ph : EntryPhase) : QueueEntry := ⟨l, k, ph, none, none, none, false, none, false⟩
def asQuality (s : State) : State := { s with config := { s.config with authority := .quality } }
def withCu (s : State) (c : CatchUpUnit) : State := { s with blocks := { s.blocks with cu := c } }
def withPu (s : State) (p : PresenceUnit) : State := { s with blocks := { s.blocks with pu := p } }
def withDu (s : State) (d : DispatchUnit) : State := { s with blocks := { s.blocks with du := d } }
def withRe (s : State) (r : Replica) : State := { s with re := ⟨r, s.re.count, r.digest⟩ }

/-- A cell with an own frame in transmission, its entry with `faults` transmit faults. -/
def sending (st : StationState) (b : FrameBody) (faults : Nat) : State :=
  (cell st).withLc ⟨[{ entry b .du with inTx := true, faults := faults }], [], .sending, some ⟨b, 63⟩, 5⟩

/-- A cell whose Load Engine works on the ACTIVE slot. -/
def loading (k : OpKind) (st : SlotState) (done retries : Nat) : State :=
  (cell .active).withLe
    { State.reset.blocks.le with
      active := ⟨st, some ⟨14, 1, 7, 2, done, retries⟩⟩, op := some ⟨k, some .active, 5⟩ } false

/-- A cell in an insertion state with the counters of a step that runs. -/
def inserting (i : Insertion) : State :=
  let s := cell .active [] [queued 300 1 .running]
  s.withIw { s.blocks.iw with insertion := i, counters := ⟨some 300, 1, 50, 20, 18, 2, 1, 10, false, 2, 9⟩ }

/-- The gate of a cell set open or closed. -/
def gated (open' : Bool) (s : State) : State := s.withIw { s.blocks.iw with gate := open' }

/-- A cell that is leaving, with the LOAD of program 11 in flight. -/
def leavingLoad (s : State) : State :=
  withDu (s.withLe { State.reset.blocks.le with
    active := ⟨.loading, some ⟨11, 1, 7, 2, 0, 0⟩⟩, op := some ⟨.load, some .active, 5⟩ } false)
    { s.blocks.du with leaving := true }

/-- A command answers a next state. -/
def answers (c : Instr) (s : State) : Bool :=
  match exec c s with
  | .next _ => true
  | _ => false

/-- The state after a command. -/
def after (c : Instr) (s : State) : State :=
  match exec c s with
  | .next t => t
  | _ => s

theorem takes (s : State) (h : (s.blocks.cli.fifo == [] && s.blocks.cli.resp == none && !s.blocks.cli.resetAwaited
    && s.blocks.station != .parked) = true) : s.TakesAtOnce := by
  simp only [Bool.and_eq_true, beq_iff_eq, Bool.not_eq_true', bne_iff_ne, ne_eq] at h
  exact ⟨h.1.1.1, h.1.1.2, h.1.2, h.2⟩

theorem hears (s : State) (f : RxFrame) (b : FrameBody) (h : (judgeFrame f == some b && s.blocks.lc.tx == none
    && s.blocks.lc.medium.hears && s.blocks.station != .offline) = true) : s.HearsPeer f b := by
  simp only [Bool.and_eq_true, beq_iff_eq, bne_iff_ne, ne_eq] at h
  exact ⟨h.1.1.1, h.1.1.2, h.1.2, h.2⟩

/-- A state frame of peer `p` that a cell hears and applies. -/
theorem hearing (s : State) (p : Nat) (b : FrameBody) (a : Level)
    (h : (judgeFrame (buildFrame p 63 b) == some b && s.blocks.lc.tx == none && s.blocks.lc.medium.hears
      && s.blocks.station != .offline) = true)
    (hs : (b.isState && s.blocks.cu.phase != .receiving && (buildFrame p 63 b).sender.toNat == p
      && s.blocks.pu.authorityOf p == a) = true) :
    s.Hearing (.whole (buildFrame p 63 b)) p a b := by
  simp only [Bool.and_eq_true, beq_iff_eq, bne_iff_ne, ne_eq] at hs
  obtain ⟨⟨⟨h1, h2⟩, h3⟩, h4⟩ := hs
  have g := hears s _ b h
  have r : received s.blocks.lc.medium (.whole (buildFrame p 63 b)) = some (some (buildFrame p 63 b)) := by
    simp only [received, g.idleBefore, if_true]
  have k := State.Hearing.peer _ _ b g.receiving r g.good g.online h1 h2
  rw [h3, h4] at k
  exact k

/-! ### The machine -/

theorem test_reset_is_the_core's_reset : Sys2Proof.core.reset = State.reset := rfl
theorem test_empty_floor_digest : Replica.empty.digest = 0xD202EF8D := by decide +kernel
theorem test_no_row_gives_bits : decodeTableWord 8 0x5A = none := rfl
theorem test_cell_is_sound : floor.sound = true := by decide +kernel
theorem test_crc16_check_value : crc16 (bytesBits [0x31, 0x32, 0x33, 0x34, 0x35, 0x36, 0x37, 0x38, 0x39]) = 0x29B1 := by
  decide +kernel
theorem test_crc32_check_value : crc32 [0x31, 0x32, 0x33, 0x34, 0x35, 0x36, 0x37, 0x38, 0x39] = 0xCBF43926 := by
  decide +kernel
theorem test_bid_payload : (FrameBody.bid 0x01020304 6).payload = [1, 2, 3, 4, 6] := by decide +kernel
theorem test_status_bytes_are_read : requestOf 6 [] = .status := by decide +kernel
theorem test_cede_bytes_are_read : requestOf 17 [0, 0, 1, 44, 1] = .cede 300 1 := by decide +kernel
theorem test_wrong_size_is_named : requestOf 17 [0, 0, 1, 44] = .badSize 17 := by decide +kernel

/-- Nine zero bits, as a kind, sender and target of 0 give them behind the start-of-frame bit, carry a stuff bit after
the fifth; the frame is read back. -/
theorem test_levels_are_stuffed :
    (wireLevels ⟨0, 0, 0, [], 0xFFFF⟩).take 9 = [false, false, false, false, false, false, true, false, false]
      ∧ receiveLevels .idle (wireLevels ⟨0, 0, 0, [], 0xFFFF⟩) = some (some ⟨0, 0, 0, [], 0xFFFF⟩) := by
  decide +kernel

theorem test_seven_equal_levels_cut_the_frame :
    receiveLevels .idle (false :: List.replicate 6 false ++ [true]) = some none := by decide +kernel

theorem test_no_frame_before_idle :
    (after (.frameEnd .cut) ((cell .active).withLc ⟨[], [], .notIdle 0, none, 5⟩)).blocks.lc.junk = 5
      ∧ (after (.frameEnd .cut) (cell .active)).blocks.lc.junk = 6 := by decide +kernel

/-! ### The hypotheses of the statements can be met -/

theorem test_meets_StepRunsTheFrontCommand :
    ({ cell .active with pending := [.join, .leave] } : State).pending = .join :: [.leave] := rfl

theorem test_meets_EmptyQueueLetsTimePass : (cell .active).pending = [] := rfl

theorem test_meets_ResetsLeave :
    let s := (cell .active).withCli { State.reset.blocks.cli with resetAwaited := true }
    (s.blocks.cli.resetAwaited = true ∧ s.blocks.cli.resp = none) ∧ (cell .active).blocks.cli.resetAwaited = false :=
  ⟨⟨rfl, rfl⟩, rfl⟩

theorem test_meets_EveryStepKeepsTheReplicaSound : (cell .active).replicaInv ∧ answers .status (cell .active) :=
  ⟨⟨by decide +kernel, rfl, rfl⟩, by decide +kernel⟩

theorem test_meets_EveryStepKeepsTheGate :
    State.reset.gateInv ∧ (after (.seat 1) (gated true (cell .active))).gateInv ∧ answers .join State.reset := by
  refine ⟨?_, ?_, by decide +kernel⟩
  · unfold State.gateInv
    refine ⟨by decide +kernel, fun h => absurd h (by decide +kernel), fun _ => rfl⟩
  · unfold State.gateInv
    refine ⟨by decide +kernel, fun h => absurd h (by decide +kernel), fun _ => by decide +kernel⟩

theorem test_meets_EveryStepKeepsTheStoresBounded : (cell .active).storesInv ∧ answers .transmitStart (cell .active) :=
  ⟨by unfold State.storesInv; decide +kernel, by decide +kernel⟩

/-- A station in RECEIVING from peer 8, with `n` frames buffered. -/
def receiving (n : Nat) : State :=
  withCu (cell .joining) { State.reset.blocks.cu with
    phase := .receiving, reference := some 8, snapshotTimer := some 4
    copy := .receiving ⟨50, 0xD202EF8D, 0, 0, 0, none, .empty⟩, expected := 1
    buffer := List.replicate n ⟨8, false, .resume 1⟩ }

/-- A member that runs a step and sends a BID for another, and a station that receives a snapshot. -/
theorem test_meets_EveryStepKeepsTheDispatchQueue :
    (withDu (sending .active (.bid 100 1) 0) { State.reset.blocks.du with queue := [queued 300 1 .running] }).queueInv
      ∧ answers (.frameEnd .own) (sending .active (.bid 100 1) 0) ∧ (receiving 3).queueInv
      ∧ answers .snapshotTimerExpiry (receiving 3) := by
  refine ⟨⟨by decide, fun _ => by decide +kernel, ?_, by decide, fun _ => rfl, nofun, nofun, nofun, nofun, nofun⟩,
    by decide +kernel, ⟨by decide, nofun, nofun, by decide, fun h => absurd rfl h, nofun, nofun, nofun, fun _ => rfl, nofun⟩,
    by decide +kernel⟩
  rintro x lot k h hb
  obtain rfl : x = ⟨.bid 100 1, 63⟩ := (Option.some.inj h).symm
  obtain ⟨rfl, rfl⟩ : 100 = lot ∧ 1 = k := by simpa using hb
  exact ⟨by decide, by decide⟩

theorem test_meets_OnlyHeardFramesChangeTheFloor :
    isReset (.seat 1) = false ∧ answers (.seat 1) (cell .active) ∧ ofCellLine (.seat 1) = false :=
  ⟨rfl, by decide +kernel, rfl⟩

theorem test_meets_EvaluationsFrame : (cell .active).blocks.du.leaving = false := rfl

theorem test_meets_LoadingAndInsertionFrames :
    ofLoading (.blockOk 1 1) = true ∧ (loading .load .loading 1 0).blocks.du.leaving = false
      ∧ answers (.blockOk 1 1) (loading .load .loading 1 0) ∧ ofInsertion (.verdict 0x11111111) = true
      ∧ (inserting (.inTest 0x11 50)).blocks.du.leaving = false
      ∧ answers (.verdict 0x11111111) (inserting (.inTest 0x11 50)) :=
  ⟨rfl, rfl, by decide +kernel, rfl, rfl, by decide +kernel⟩

def beaconQueued : State := cell .active [entry blankBeacon .pu]
def bidQueued : State := cell .active [entry (.bid 100 1) .du]
def staleBidQueued : State := cell .active [entry (.bid 500 1) .du]

theorem test_meets_TransmitStartSendsOrRemoves :
    (bidQueued.blocks.lc.tx = none
      ∧ bidQueued.blocks.lc.queue.find? (fun x => kindAllowed bidQueued.blocks.station x.body.kind)
          = some (entry (.bid 100 1) .du)
      ∧ valid bidQueued.view bidQueued.blocks (entry (.bid 100 1) .du) = true)
    ∧ (beaconQueued.blocks.lc.tx = none
      ∧ beaconQueued.blocks.lc.queue.find? (fun x => kindAllowed beaconQueued.blocks.station x.body.kind)
          = some (entry blankBeacon .pu)
      ∧ beaconQueued.blocks.du.leaving = false)
    ∧ (staleBidQueued.blocks.lc.tx = none ∧ staleBidQueued.blocks.lc.queue = [entry (.bid 500 1) .du]
      ∧ staleBidQueued.blocks.lc.waiting = [] ∧ isMember staleBidQueued.blocks.station = true
      ∧ staleBidQueued.re.replica.step? 500 1 = some ⟨spec 15, .claimed 8 50⟩) := by
  decide +kernel

theorem test_meets_StoppedTransmissionsAreHandled :
    let s := sending .active (.bid 100 1) 1
    let u := sending .active (.bid 100 1) 2
    (s.blocks.lc.tx = some ⟨.bid 100 1, 63⟩ ∧ (∀ e ∈ s.blocks.lc.queue, e.removal = false)
      ∧ s.blocks.lc.queue.find? (fun y => y.inTx) = some { entry (.bid 100 1) .du with inTx := true, faults := 1 })
    ∧ u.blocks.lc.tx = some ⟨.bid 100 1, 63⟩
      ∧ u.blocks.lc.queue.find? (fun y => y.inTx) = some { entry (.bid 100 1) .du with inTx := true, faults := 2 } := by
  decide +kernel

/-- A full queue whose first entry is in transmission, with the given offers waiting. -/
def full (w : List SendEntry) : LinkController :=
  ⟨{ entry blankBeacon .pu with inTx := true } :: List.replicate 7 (entry (.resume 1) .du), w, .sending,
    some ⟨blankBeacon, 63⟩, 5⟩

theorem test_meets_FreedEntriesAreGranted :
    ((full []).queue.length ≤ 8 ∧ (full []).waiting = [])
      ∧ ((full []).queue.countP (fun e => e.inTx) = 1
        ∧ (∀ x ∈ [entry (.kitGive 9) .hr], (entry (.bid 1 1) .du).body.kind < x.body.kind)
        ∧ (∀ x ∈ [entry (.bid 2 1) .du], (entry (.bid 1 1) .du).body.kind ≤ x.body.kind))
      ∧ ((∀ x ∈ [entry (.bid 2 1) .du], x.body.kind ≤ (entry (.bid 1 1) .du).body.kind)
        ∧ (∀ x ∈ [entry (.resume 1) .du], (entry (.bid 1 1) .du).body.kind < x.body.kind))
      ∧ ((cell .active).withLc (full [])).blocks.lc.tx = some ⟨blankBeacon, 63⟩ := by
  decide +kernel

theorem test_a_freed_entry_is_granted :
    (after (.frameEnd .own) ((cell .active).withLc (full [entry (.kitGive 9) .hr, entry (.bid 1 1) .du]))).blocks.lc.waiting
      = [entry (.kitGive 9) .hr] := by decide +kernel

theorem test_meets_FrameEndsAreJudged :
    (let s := cell .active;
      s.blocks.lc.tx = none ∧ received s.blocks.lc.medium .cut = some none
        ∧ received s.blocks.lc.medium (.whole ⟨8, 8, 63, [0, 0, 0, 100, 1], 0⟩)
          = some (some ⟨8, 8, 63, [0, 0, 0, 100, 1], 0⟩)
        ∧ judgeFrame ⟨8, 8, 63, [0, 0, 0, 100, 1], 0⟩ = none)
    ∧ (let s := cell .offline;
      s.blocks.lc.tx = none ∧ s.blocks.station = .offline
        ∧ received s.blocks.lc.medium (.whole (buildFrame 8 63 (.bid 100 1))) = some (some (buildFrame 8 63 (.bid 100 1)))
        ∧ judgeFrame (buildFrame 8 63 (.bid 100 1)) = some (.bid 100 1))
    ∧ State.reset.blocks.lc.tx = none ∧ State.reset.blocks.lc.medium = .notIdle 0
    ∧ received (cell .active).blocks.lc.medium (.levels ([] ++ false :: List.replicate 7 true)) = some none
    ∧ wireLevels (buildFrame 8 63 (.bid 100 1))
      = (wireLevels (buildFrame 8 63 (.bid 100 1))).take 85 ++ false :: List.replicate 0 true
    ∧ receiveLevels (cell .active).blocks.lc.medium (wireLevels (buildFrame 8 63 (.bid 100 1)))
      = some (some (buildFrame 8 63 (.bid 100 1))) := by
  decide +kernel

/-- The seven recessive levels that cut a frame count toward the 11 of idle, and the next frame is received (R1). -/
theorem test_a_cut_frame_leaves_its_recessive_levels :
    let s := after (.frameEnd (.levels (false :: List.replicate 7 true))) (cell .active)
    let f := wireLevels (buildFrame 8 63 (.bid 100 1))
    s.blocks.lc.medium = .ended 7 ∧ s.blocks.lc.junk = 6
      ∧ (after (.frameEnd (.levels (List.replicate 4 true ++ f))) s).re.count = 43
      ∧ (after (.frameEnd (.levels (List.replicate 3 true ++ f))) s).re.count = 42 := by
  decide +kernel

theorem test_meets_StepFramesMoveOneStep :
    (floor.lot? 100 = some waitingLot ∧ waitingLot.step? 1 = some ⟨spec 11, .waiting 50⟩ ∧ waitingLot.suspended = false)
      ∧ (cell .active).Hearing (.whole (buildFrame 8 63 (.bid 100 1))) 8 .quality (.bid 100 1)
      ∧ (floor.lot? 500 = some claimedLot ∧ claimedLot.step? 1 = some ⟨spec 15, .claimed 8 50⟩)
      ∧ (cell .active).Hearing (.whole (buildFrame 8 63 (.cede 500 1))) 8 .quality (.cede 500 1)
      ∧ (cell .active).Hearing (.whole (buildFrame 8 63 (.stepStart 500 1 10))) 8 .quality (.stepStart 500 1 10) :=
  ⟨by decide +kernel, hearing _ _ _ _ (by decide +kernel) (by decide +kernel), by decide +kernel,
    hearing _ _ _ _ (by decide +kernel) (by decide +kernel), hearing _ _ _ _ (by decide +kernel) (by decide +kernel)⟩

/-- The step that passes its units on, the last step that gives the lot its owner, and the tally with no unit left. -/
theorem test_meets_StepTallyPassesOn :
    (floor.lot? 300 = some runningLot ∧ runningLot.step? 1 = some ⟨spec 13, .running 7 9 50⟩
        ∧ 1 < runningLot.plan.length ∧ 50 = 40 + 9 + 1 ∧ floor.kit? 9 = some ⟨9, 3, .at 7, 5, 100⟩)
      ∧ (sending .active (.stepTally 300 1 9 50 40 9 1 20) 0).Hearing .own 7 .operator (.stepTally 300 1 9 50 40 9 1 20)
      ∧ (floor.lot? 600 = some peerRunningLot ∧ peerRunningLot.step? 1 = some ⟨spec 16, .running 8 10 50⟩
        ∧ 1 = peerRunningLot.plan.length ∧ 50 = 0 + 49 + 1)
      ∧ (cell .active).Hearing (.whole (buildFrame 8 63 (.stepTally 600 1 10 50 50 0 0 20))) 8 .quality
          (.stepTally 600 1 10 50 50 0 0 20)
      ∧ (cell .active).Hearing (.whole (buildFrame 8 63 (.stepTally 600 1 10 50 0 49 1 20))) 8 .quality
          (.stepTally 600 1 10 50 0 49 1 20) :=
  ⟨by decide +kernel, .own ⟨.stepTally 300 1 9 50 40 9 1 20, 63⟩ rfl (by decide) rfl (by decide), by decide +kernel,
    hearing _ _ _ _ (by decide +kernel) (by decide +kernel), hearing _ _ _ _ (by decide +kernel) (by decide +kernel)⟩

theorem test_meets_HoldAndLiftApply :
    (cell .active).Hearing (.whole (buildFrame 8 63 (.hold 9 (.lot 100) .operator .host))) 8 .quality
        (.hold 9 (.lot 100) .operator .host)
      ∧ (cell .active).Hearing (.whole (buildFrame 3 63 (.lift 7 3))) 3 .operator (.lift 7 3)
      ∧ (cell .active).Hearing (.whole (buildFrame 8 63 (.lift 7 3))) 8 .quality (.lift 7 3) :=
  ⟨hearing _ _ _ _ (by decide +kernel) (by decide +kernel), hearing _ _ _ _ (by decide +kernel) (by decide +kernel),
    hearing _ _ _ _ (by decide +kernel) (by decide +kernel)⟩

/-- A SHIP; a WITHDRAW and a RESUME of a lot with no RUNNING step, of one with, and of an absent one; a POST. -/
theorem test_meets_LotsJoinLeaveAndResume :
    (cell .active).Hearing (.whole (buildFrame 8 63 (.ship 200 48))) 8 .quality (.ship 200 48)
      ∧ (∀ lot ∈ [100, 300, 9999],
        (cell .active).Hearing (.whole (buildFrame 8 63 (.withdraw lot))) 8 .quality (.withdraw lot)
          ∧ (cell .active).Hearing (.whole (buildFrame 8 63 (.resume lot))) 8 .quality (.resume lot))
      ∧ (floor.lot? 100 = some waitingLot ∧ waitingLot.anyRunning = false ∧ floor.lot? 300 = some runningLot
        ∧ runningLot.anyRunning = true ∧ floor.lot? 9999 = none)
      ∧ (cell .active).Hearing (.whole (buildFrame 8 63 (.post ⟨800, 5, 10, 1, [spec 11, spec 12]⟩))) 8 .quality
        (.post ⟨800, 5, 10, 1, [spec 11, spec 12]⟩) :=
  ⟨hearing _ _ _ _ (by decide +kernel) (by decide +kernel), by
    intro lot hl
    simp only [List.mem_cons, List.not_mem_nil, or_false] at hl
    rcases hl with rfl | rfl | rfl
    all_goals exact ⟨hearing _ _ _ _ (by decide +kernel) (by decide +kernel),
      hearing _ _ _ _ (by decide +kernel) (by decide +kernel)⟩,
    by decide +kernel, hearing _ _ _ _ (by decide +kernel) (by decide +kernel)⟩

/-- An ORPHAN of a peer that owns a lot, runs a step and claims another. -/
theorem test_meets_OrphanFreesTheFloor :
    (cell .active).Hearing (.whole (buildFrame 3 63 (.orphan 8))) 3 .operator (.orphan 8)
      ∧ (floor.lot? 700 = some otherOwnedLot ∧ otherOwnedLot.ownedBy 8 = true)
      ∧ (floor.lot? 600 = some peerRunningLot ∧ peerRunningLot.ownedBy 8 = false) :=
  ⟨hearing _ _ _ _ (by decide +kernel) (by decide +kernel), by decide +kernel, by decide +kernel⟩

/-- Each kit frame on kit 10, which is present, and on kit 255, which is not. -/
theorem test_meets_KitFramesMoveAndRenew :
    floor.kit? 10 = some ⟨10, 3, .shelf, 0, 10⟩ ∧ floor.kit? 255 = none
      ∧ ∀ b ∈ [10, 255].flatMap (fun k => [FrameBody.kitTake k, .kitGive k, .kitFound k, .kitServiced k, .kitRetire k,
          .kitAdd k 1 1]), (cell .active).Hearing (.whole (buildFrame 8 63 b)) 8 .quality b := by
  refine ⟨by decide +kernel, by decide +kernel, ?_⟩
  intro b hb
  simp only [List.flatMap_cons, List.flatMap_nil, List.append_nil, List.cons_append, List.nil_append, List.mem_cons,
    List.not_mem_nil, or_false] at hb
  rcases hb with h | h | h | h | h | h | h | h | h | h | h | h <;> subst h <;>
    exact hearing _ _ _ _ (by decide +kernel) (by decide +kernel)

theorem test_meets_StateFramesAreAppliedOrBuffered :
    (sending .active (.bid 100 1) 0).Hearing .own 7 .operator (.bid 100 1)
      ∧ (cell .active).Hearing (.whole (buildFrame 8 63 (.ship 9999 1))) 8 .quality (.ship 9999 1)
      ∧ takesEffect (cell .active).re.replica .quality 8 (.ship 9999 1) = false
      ∧ (receiving 15).HearsPeer (buildFrame 8 63 (.bid 100 1)) (.bid 100 1)
      ∧ (receiving 16).HearsPeer (buildFrame 8 63 (.bid 100 1)) (.bid 100 1)
      ∧ (FrameBody.bid 100 1).isState = true ∧ (receiving 15).blocks.cu.phase = .receiving
      ∧ (receiving 15).blocks.cu.buffer.length < 16 ∧ 16 ≤ (receiving 16).blocks.cu.buffer.length
      ∧ (receiving 16).blocks.du.leaving = false :=
  ⟨.own ⟨.bid 100 1, 63⟩ rfl (by decide) rfl (by decide), hearing _ _ _ _ (by decide +kernel) (by decide +kernel),
    by decide +kernel, hears _ _ _ (by decide +kernel), hears _ _ _ (by decide +kernel), rfl, rfl, by decide, by decide,
    rfl⟩

theorem test_meets_PeerFramesAreRecorded :
    (∀ p ∈ [0, 1, 7, 12, 62, 63], (cell .active).HearsPeer (buildFrame p 63 (.resume 1)) (.resume 1)
        ∧ (buildFrame p 63 (.resume 1)).sender.toNat = p)
      ∧ ((cell .active).blocks.pu.peer 12).state = .absent ∧ (cell .active).stationId = 7
      ∧ (cell .active).blocks.pu.conflictRaised = false
      ∧ (let s := withPu (cell .active) { (cell .active).blocks.pu with conflictRaised := true };
        s.HearsPeer (buildFrame 7 63 blankBeacon) blankBeacon ∧ s.blocks.pu.conflictRaised = true
          ∧ s.blocks.cu.reference ≠ some s.stationId) := by
  refine ⟨?_, by decide +kernel, rfl, rfl, hears _ _ _ (by decide +kernel), rfl, by decide +kernel⟩
  intro p hp
  simp only [List.mem_cons, List.not_mem_nil, or_false] at hp
  rcases hp with h | h | h | h | h | h <;> subst h <;> exact ⟨hears _ _ _ (by decide +kernel), by decide +kernel⟩

def aheadBeacon : Beacon := ⟨.active, .operator, 20, 43, 1, 0, none, .ambient, false⟩
def otherDigestBeacon : Beacon := ⟨.parked, .operator, 20, 42, 1, 0, none, .ambient, false⟩

/-- A cell on an empty floor. -/
def newcomer (st : StationState) : State := { cell st with re := ⟨.empty, 42, 0xD202EF8D⟩ }

theorem test_meets_DivergenceEndsMembership :
    (cell .active).HearsPeer (buildFrame 8 63 (.beacon aheadBeacon)) (.beacon aheadBeacon)
      ∧ (newcomer .parked).HearsPeer (buildFrame 3 63 (.beacon otherDigestBeacon)) (.beacon otherDigestBeacon)
      ∧ isMember (cell .active).blocks.station = true ∧ isMember aheadBeacon.state = true
      ∧ 2 ≤ (cell .active).config.attemptLimit ∧ ahead aheadBeacon.count (cell .active).re.count = true
      ∧ otherDigestBeacon.count = (newcomer .parked).re.count
      ∧ otherDigestBeacon.digest ≠ (newcomer .parked).re.digest
      ∧ 3 < (cell .active).stationId :=
  ⟨hears _ _ _ (by decide +kernel), hears _ _ _ (by decide +kernel), by decide +kernel, by decide +kernel,
    by decide +kernel, by decide +kernel, by decide +kernel, by decide +kernel, by decide +kernel⟩

/-- A station that waits for the answer of peer 8. -/
def requesting : State :=
  withCu (cell .joining) { State.reset.blocks.cu with phase := .requesting, reference := some 8, answerTimer := some 4 }

theorem test_meets_CatchUpBeginsAndInstalls :
    (cell .active).HearsPeer (buildFrame 8 7 .catchReq) .catchReq
      ∧ (isMember (cell .active).blocks.station = true ∧ (cell .active).blocks.cu.session = none)
      ∧ requesting.HearsPeer (buildFrame 8 7 (.snapBegin 50 3 64 32 24)) (.snapBegin 50 3 64 32 24)
      ∧ (requesting.blocks.cu.phase = .requesting ∧ requesting.blocks.cu.answerTimer.isSome = true)
      ∧ (receiving 0).HearsPeer (buildFrame 8 7 (.snapEnd 50 0xD202EF8D 1)) (.snapEnd 50 0xD202EF8D 1)
      ∧ ((receiving 0).blocks.cu.copy = .receiving ⟨50, 0xD202EF8D, 0, 0, 0, none, .empty⟩
        ∧ (receiving 0).blocks.cu.buffer = [] ∧ 1 = (receiving 0).blocks.cu.expected
        ∧ Replica.empty.digest = 0xD202EF8D ∧ (receiving 0).blocks.cu.reference = some 8
        ∧ (buildFrame 8 7 .catchReq).target.toNat = (cell .active).stationId) :=
  ⟨hears _ _ _ (by decide +kernel), by decide +kernel, hears _ _ _ (by decide +kernel), by decide +kernel,
    hears _ _ _ (by decide +kernel), by decide +kernel⟩

/-- A station in the listen wait with the given Peer Table. -/
def listenWaiting (ps : List PeerRec) : State := withPu (cell .joining) ⟨.joining, ps, some 3, some 5, none, true, false⟩

def lowerJoiner : List PeerRec := [⟨3, .present, some 5, some ⟨.joining, .operator, 20, 41, 9, 0, none, .ambient, false⟩⟩]

theorem test_meets_ListenPeriodEnds :
    (let s := withPu (cell .listening) ⟨.listening, [], some 3, some 5, none, false, false⟩;
      s.blocks.pu.listenTimer.isSome = true ∧ s.blocks.du.leaving = false ∧ s.blocks.station = .listening)
    ∧ (memberPresent (listenWaiting []).blocks = false ∧ mayFound (listenWaiting []).view (listenWaiting []).blocks = true)
    ∧ (memberPresent (listenWaiting peers).blocks = true ∧ chooseReference (listenWaiting peers).blocks = some 8)
    ∧ (memberPresent (listenWaiting lowerJoiner).blocks = false
      ∧ mayFound (listenWaiting lowerJoiner).view (listenWaiting lowerJoiner).blocks = false) := by
  decide +kernel

theorem test_meets_PresenceTimersExpire :
    ((cell .active).blocks.pu.beaconTimer.isSome = true ∧ acceptsFrames (cell .active).blocks.station = true)
      ∧ ((cell .active).blocks.pu.peer 3 = ⟨3, .present, some 801, some ⟨.active, .operator, 20, 41, 9, 0, none, .ambient, false⟩⟩
        ∧ 4 * (10 * 20) < 801 ∧ (cell .active).blocks.du.leaving = false)
      ∧ (((cell .active).blocks.pu.peer 8).state = .present ∧ ((cell .active).blocks.pu.peer 8).silence = some 2)
      ∧ (let s := withPu (cell .active) { (cell .active).blocks.pu with parkTimer := some 4 };
        s.blocks.station = .active ∧ s.blocks.pu.parkTimer.isSome = true ∧ s.blocks.du.leaving = false) := by
  decide +kernel

theorem test_meets_AttemptTimersExpire :
    (requesting.blocks.cu.answerTimer.isSome = true ∧ requesting.blocks.cu.attempts + 1 < requesting.config.attemptLimit)
      ∧ ((receiving 0).blocks.cu.snapshotTimer.isSome = true ∧ (receiving 0).blocks.du.leaving = false)
      ∧ (let s := withCu requesting { requesting.blocks.cu with attempts := 3 };
        s.blocks.cu.answerTimer.isSome = true ∧ s.config.attemptLimit ≤ s.blocks.cu.attempts + 1)
      ∧ (let s := withCu requesting { requesting.blocks.cu with deferTimer := some 4 };
        acceptsFrames s.blocks.station = true ∧ s.blocks.cu.deferTimer.isSome = true ∧ s.blocks.cu.reference = some 8)
      ∧ (let s := withCu requesting { State.reset.blocks.cu with phase := .retryWait, retryTimer := some 4 };
        s.blocks.cu.retryTimer.isSome = true ∧ chooseReference s.blocks = some 8) := by
  decide +kernel

/-- A tier 0 step at an ACTIVE station bids at once; at a PARKED one its timer runs 8 bid units. -/
theorem test_meets_DeferenceTimersStartAndEnd :
    let s := (cell .active).withLe { State.reset.blocks.le with active := ⟨.verified, some ⟨11, 1, 7, 2, 2, 0⟩⟩ } false
    let p := (cell .parked).withLe { State.reset.blocks.le with active := ⟨.verified, some ⟨11, 1, 7, 2, 2, 0⟩⟩ } false
    let d := withDu s { s.blocks.du with timers := [⟨100, 1, 5⟩, ⟨500, 1, 5⟩] }
    (s.blocks.du.deferring 100 1 = false ∧ s.blocks.lc.hasBid 100 1 = false
        ∧ eligible s.view s.blocks waitingLot ⟨spec 11, .waiting 50⟩ = true ∧ tier s.view s.blocks (spec 11) = 0
        ∧ s.blocks.du.queue.length = 0)
      ∧ (p.blocks.du.deferring 100 1 = false ∧ p.blocks.lc.hasBid 100 1 = false
        ∧ eligible p.view p.blocks waitingLot ⟨spec 11, .waiting 50⟩ = true ∧ p.blocks.station = .parked)
      ∧ (d.blocks.du.deferring 100 1 = true ∧ eligibleFor d.view d.blocks 100 1 = true)
      ∧ (d.blocks.du.deferring 500 1 = true ∧ eligibleFor d.view d.blocks 500 1 = false) := by
  decide +kernel

theorem test_meets_TierIsTheFirstThatApplies :
    let s := (cell .active).withLe { State.reset.blocks.le with staged := ⟨.verifying, some ⟨11, 1, 7, 2, 2, 0⟩⟩ } false
    (usableFitted s.view s.blocks.hr 4 = none ∧ usableFitted s.view s.blocks.hr 3 = some 9)
      ∧ (s.blocks.hr.band ≠ .hot ∧ s.blocks.hr.band = (spec 11).band)
      ∧ tier s.view s.blocks { spec 11 with family := 4 } = 3 ∧ tier s.view s.blocks { spec 11 with band := .hot } = 2
      ∧ tier s.view s.blocks (spec 12) = 1 ∧ tier s.view s.blocks (spec 11) = 0 := by
  decide +kernel

theorem test_meets_StoppedTimersDoNotExpire :
    (cell .active).blocks.pu.listenTimer = none ∧ State.reset.blocks.pu.beaconTimer = none
      ∧ (cell .active).blocks.pu.parkTimer = none ∧ (cell .active).blocks.cu = .reset
      ∧ ((cell .active).blocks.pu.peer 62).silence = none ∧ (cell .active).blocks.du.deferring 100 1 = false
      ∧ (cell .active).blocks.le.op = none ∧ (cell .active).blocks.iw.insertion = .idle := by
  decide +kernel

theorem test_meets_BlocksAndImagesAreTaken :
    let s := loading .load .loading 1 1
    let e := loading .load .loading 2 2
    slotOf 1 = some .active ∧ slotOf 2 = some .staged ∧ s.blocks.le.op = some ⟨.load, some .active, 5⟩
      ∧ (s.blocks.le.slot .active).prog = some ⟨14, 1, 7, 2, 1, 1⟩ ∧ s.config.loadRetry = true
      ∧ e.blocks.le.op = some ⟨.load, some .active, 5⟩ ∧ (e.blocks.le.slot .active).prog = some ⟨14, 1, 7, 2, 2, 2⟩ := by
  decide +kernel

theorem test_meets_LoadsFail :
    let s := loading .load .loading 1 2
    let v := loading .verify .verifying 2 0
    s.blocks.du.leaving = false ∧ s.blocks.le.op = some ⟨.load, some .active, 5⟩
      ∧ (s.blocks.le.slot .active).prog = some ⟨14, 1, 7, 2, 1, 2⟩
      ∧ v.blocks.le.op = some ⟨.verify, some .active, 5⟩
      ∧ (v.blocks.le.slot .active).prog = some ⟨14, 1, 7, 2, 2, 0⟩ := by
  decide +kernel

theorem test_meets_TesterOperationsEnd :
    let v := loading .verify .verifying 2 0
    v.blocks.le.op = some ⟨.verify, some .active, 5⟩ ∧ (v.blocks.le.slot .active).prog = some ⟨14, 1, 7, 2, 2, 0⟩
      ∧ (loading .swap .loaded 2 0).blocks.le.op = some ⟨.swap, some .active, 5⟩
      ∧ (loading .purge .loaded 2 0).blocks.le.op = some ⟨.purge, some .active, 5⟩
      ∧ (cell .active).blocks.le.op = none ∧ slotOf 1 = some .active ∧ slotOf 2 = some .staged
      ∧ slotOf 1 ≠ some .staged ∧ slotOf 0 = none ∧ slotOf 3 = none := by
  decide +kernel

theorem test_meets_TesterBytesAreRead :
    testerMsgOf 129 [1, 0] = some (.blockOk 1 0) ∧ (cell .active).blocks.le.rx = []
      ∧ ([1, 2] : List Byte) ≠ envelopeCrc (byte 3 :: 129 :: [1, 0])
      ∧ (∀ b ∈ byte 3 :: 129 :: [1, 0] ++ ([1, 2] : List Byte), b ≠ 0x5A)
      ∧ ((cell .active).withLe { State.reset.blocks.le with rx := [0x5A, 3, 129] } false).blocks.le.rx
          = 0x5A :: [3, 129] ∧ (∀ b ∈ ([3, 129] : List Byte), b ≠ 0x5A) := by
  decide +kernel

theorem test_meets_SeatIsAnswered :
    let s := gated true (inserting .idle)
    (s.blocks.iw.insertion = .idle ∧ s.blocks.iw.gate = true
        ∧ enabledSet s.view s.blocks.iw (configuredMask s.view 0xFF) = [1, 5]
        ∧ enabledSet s.view s.blocks.iw (configuredMask s.view 0x80) = [])
      ∧ (cell .active).blocks.iw.gate = false ∧ (cell .active).blocks.iw.insertion = .idle
      ∧ (inserting (.waitingGate 3)).blocks.iw.insertion = .waitingGate 3
      ∧ (inserting (.inTest 1 50)).blocks.iw.insertion = .inTest 1 50 := by
  decide +kernel

theorem test_meets_InsertedUnitsAreCounted :
    let s := inserting (.inTest 0x11 50)
    let e := s.withIw { s.blocks.iw with counters := { s.blocks.iw.counters with endPending := true } }
    (s.blocks.iw.insertion = .inTest 0x11 50 ∧ s.blocks.iw.counters.endPending = false ∧ s.blocks.du.leaving = false)
      ∧ (e.blocks.iw.insertion = .inTest 0x11 50 ∧ e.blocks.iw.counters.endPending = true
        ∧ e.blocks.du.queue = queued 300 1 .running :: [] ∧ e.blocks.iw.counters.lot = some 300
        ∧ e.blocks.iw.counters.step = 1)
      ∧ (∀ m n, (cell .active).blocks.iw.insertion ≠ .inTest m n)
      ∧ (1 ≤ s.blocks.iw.sites.length ∧ s.blocks.iw.site 1 = ⟨.enabled, 2, 1⟩ ∧ 1 ≤ s.view.cfg.windowSize) :=
  ⟨⟨rfl, rfl, rfl⟩, ⟨rfl, rfl, rfl, rfl, rfl⟩, fun _ _ h => (nomatch h), by decide +kernel⟩

/-- Sites 1 and 8, and the last configured site. -/
theorem test_meets_SiteOffFollowsTheSites :
    (cell .active).siteOff 1 = false ∧ (cell .active).siteOff 2 = true ∧ (cell .active).siteOff 4 = true
      ∧ (cell .active).siteOff 5 = false ∧ (cell .active).siteOff 6 = true ∧ (cell .active).siteOff 8 = true := by
  decide +kernel

theorem test_meets_CellBytesAreRead :
    (cell .active).blocks.cli.rx = []
      ∧ ([1, 2] : List Byte) ≠ envelopeCrc (beBytes 2 1 ++ [6])
      ∧ (∀ b ∈ beBytes 2 1 ++ [6] ++ ([1, 2] : List Byte), b ≠ 0xC3)
      ∧ ((cell .active).withCli { State.reset.blocks.cli with rx := [0xC3, 0] }).blocks.cli.rx = 0xC3 :: [0]
      ∧ (∀ b ∈ ([0] : List Byte), b ≠ 0xC3) := by
  decide +kernel

def answering (n : Nat) : State :=
  (cell .active).withCli { State.reset.blocks.cli with
    resp := some ⟨6, .ok, 0, .none⟩, fifo := List.replicate n .status, discards := [.badFrame] }

theorem test_meets_RequestsWaitAndTheTransmitterSends :
    (carried .status = some .status ∧ (answering 3).blocks.cli.resp.isSome = true
      ∧ (answering 4).blocks.cli.resp.isSome = true ∧ (answering 3).blocks.cli.fifo.length < 4
      ∧ ((cell .active).withCli { State.reset.blocks.cli with resetAwaited := true }).blocks.cli.resetAwaited = true)
      ∧ ((answering 0).blocks.cli.fifo = [] ∧ (answering 0).blocks.cli.resp = some ⟨6, .ok, 0, .none⟩)
      ∧ (let s := (cell .active).withCli { State.reset.blocks.cli with discards := [.badFrame] };
        s.blocks.cli.fifo = [] ∧ s.blocks.cli.resp = none ∧ s.blocks.cli.discards = .badFrame :: [])
      ∧ ((cell .active).blocks.cli.resp = none ∧ (cell .active).blocks.cli.discards = []
        ∧ (cell .active).blocks.cli.notices = .reset .power :: [])
      ∧ (let s := (cell .active).withCli { State.reset.blocks.cli with notices := [] };
        s.blocks.cli.resp = none ∧ s.blocks.cli.discards = [] ∧ s.blocks.cli.notices = [])
      ∧ ((answering 2).blocks.cli.fifo = .status :: [.status] ∧ (answering 1).blocks.cli.fifo = .status :: []
        ∧ (answering 1).blocks.cli.resetAwaited = false)
      ∧ (let s := (cell .active).withCli { State.reset.blocks.cli with fifo := [.status], resetAwaited := true };
        s.blocks.cli.fifo ≠ [] ∧ s.blocks.cli.resetAwaited = true ∧ s.blocks.cli.resp = none
          ∧ s.blocks.cli.notices = .reset .power :: []) := by
  decide +kernel

theorem test_next_request_is_taken :
    let t := after .cellLineTransmit (answering 2)
    t.blocks.cli.fifo = [.status] ∧ (t.blocks.cli.resp.map fun r => (r.type, r.code)) = some (6, .ok)
      ∧ t.blocks.cli.tx = some (.response ⟨6, .ok, 0, .none⟩) := by decide +kernel

theorem test_meets_RequestWakesTheStation :
    carried .status = some .status ∧ (cell .parked).blocks.cli.fifo = [] ∧ (cell .parked).blocks.cli.resp = none
      ∧ (cell .parked).blocks.cli.resetAwaited = false ∧ (cell .parked).blocks.station = .parked
      ∧ (cell .parked).blocks.pu.parkTimer = none := by
  decide +kernel

theorem test_meets_ReportsAndResetAreAnswered :
    (cell .active).TakesAtOnce ∧ floor.lot? 100 = some waitingLot ∧ floor.lot? 1 = none ∧ 1 ∈ floor.ring
      ∧ floor.lot? 4294967295 = none ∧ 4294967295 ∉ floor.ring
      ∧ (0 : Byte).toNat = 0 ∧ 31 < (32 : Byte).toNat ∧ 31 < (255 : Byte).toNat :=
  ⟨takes _ (by decide +kernel), by decide +kernel, by decide +kernel, by decide +kernel, by decide +kernel,
    by decide +kernel, by decide, by decide, by decide⟩

theorem test_meets_ConfigureSetsTheRecord :
    (cell .active).TakesAtOnce ∧ (cell .active).blocks.station ≠ .offline
      ∧ (cell .offline).TakesAtOnce ∧ (cell .offline).blocks.station = .offline
      ∧ firstBad (configChecks { fields with siteCount := 9 }) = some 3 ∧ firstBad (configChecks fields) = none :=
  ⟨takes _ (by decide +kernel), by decide, takes _ (by decide +kernel), rfl, by decide +kernel, by decide +kernel⟩

theorem test_meets_JoinAndRejoin :
    (∀ st ∈ [StationState.active, .offline, .faulted, .isolated], (cell st).TakesAtOnce ∧ (cell st).blocks.station = st)
      ∧ (State.reset.TakesAtOnce ∧ State.reset.blocks.station = .offline ∧ State.reset.stationId = 0)
      ∧ chooseReference (cell .isolated).blocks = some 8 := by
  refine ⟨?_, ⟨takes _ (by decide +kernel), rfl, rfl⟩, by decide +kernel⟩
  intro st h
  simp only [List.mem_cons, List.not_mem_nil, or_false] at h
  rcases h with h | h | h | h <;> subst h <;> exact ⟨takes _ (by decide +kernel), rfl⟩

theorem test_meets_LeaveTakesTheStationOff :
    let q := cell .isolated [] [queued 500 1 .won]
    let l := withDu q { q.blocks.du with queue := [{ queued 500 1 .won with cede := some .leave }], leaving := true }
    let left := leavingLoad (cell .isolated [] [queued 100 1 .preparing])
    let bid := sending .active (.bid 900 1) 0
    let gone := withDu bid { bid.blocks.du with leaving := true }
    (cell .offline).TakesAtOnce ∧ isWorking (cell .offline).blocks.station = false
      ∧ (cell .active).TakesAtOnce ∧ (isWorking (cell .active).blocks.station = true
        ∧ (cell .active).blocks.iw.inTest = false ∧ (cell .active).blocks.du.leaving = false
        ∧ (cell .active).blocks.du.queue = [] ∧ (cell .active).blocks.lc.bidInTx = false
        ∧ queueRuns (cell .active).view (cell .active).blocks = false)
      ∧ (inserting (.inTest 1 50)).TakesAtOnce ∧ (inserting (.inTest 1 50)).blocks.iw.inTest = true
      ∧ q.TakesAtOnce ∧ (queueRuns q.view q.blocks = false ∧ q.blocks.du.queue ≠ []
        ∧ (∀ e ∈ q.blocks.du.queue, beforeRun e.phase = true))
      ∧ l.TakesAtOnce ∧ l.finish.blocks.du.leaving = true
      ∧ (left.blocks.du.leaving = true ∧ left.finish.blocks.du.leaving = false
        ∧ left.finish.blocks.le.op.map Operation.kind = some .purge
        ∧ (.claimLost 100 1 .notOwn none) ∈ left.finish.blocks.cli.notices)
      ∧ bid.TakesAtOnce ∧ (isWorking bid.blocks.station = true ∧ bid.blocks.iw.inTest = false
        ∧ bid.blocks.du.leaving = false ∧ bid.blocks.du.queue = [] ∧ bid.blocks.lc.bidInTx = true)
      ∧ gone.Hearing .own 7 .operator (.bid 900 1)
      ∧ takesEffect gone.re.replica .operator 7 (.bid 900 1) = false :=
  ⟨takes _ (by decide +kernel), rfl, takes _ (by decide +kernel), by decide +kernel, takes _ (by decide +kernel), rfl,
    takes _ (by decide +kernel), by decide +kernel, takes _ (by decide +kernel), by decide +kernel,
    by decide +kernel, takes _ (by decide +kernel), by decide +kernel,
    .own ⟨.bid 900 1, 63⟩ rfl (by decide) rfl (by decide), by decide +kernel⟩

/-- A PREPARING head whose requests are still to be made makes them in FAULTED, and not in JOINING (R90, R101). -/
theorem test_requests_in_faulted_not_in_joining :
    let s := fun st => (cell st [] [queued 500 1 .preparing]).withHr ⟨some 9, .ambient, false, none, []⟩
    (.bandNeeded 500 1 .ambient) ∈ (evaluateDispatch (s .faulted).view (s .faulted).blocks).cli.notices
      ∧ (.bandNeeded 500 1 .ambient) ∉ (evaluateDispatch (s .joining).view (s .joining).blocks).cli.notices := by
  decide +kernel

/-- A notice carries the fields its rule names and no others (R98, R135, R136, R154, R155, R165, R182). -/
theorem test_notices_carry_what_their_rules_name :
    Notice.seatInTest.bytes = [38, 1] ∧ (Notice.noSite 5).bytes = [38, 2, 5] ∧ Notice.resumed.bytes = [25]
      ∧ (Notice.resumeFailed .sendFailed).bytes = [26, 2] ∧ Notice.releaseWaiting.bytes = [30]
      ∧ (Notice.holdLost (.lot 7) .quality .count none).bytes.length + 1
        = (Notice.holdLost (.lot 7) .quality .count (some .listFull)).bytes.length
      ∧ (Notice.holdLifted ⟨7, 3, .kit 12, .quality, .host⟩ none).bytes = [44, 7, 3, 4, 0, 0, 0, 12, 1] := by
  decide +kernel

theorem test_meets_LotRequestsAreAnswered : (cell .active).TakesAtOnce := takes _ (by decide +kernel)

/-- The floor with a step claimed by this station, none running here. -/
def claimedHere : Replica :=
  { floor with lots := [waitingLot, completeLot, { claimedLot with plan := [⟨spec 15, .claimed 7 50⟩] }] }

/-- The cell with kit 9 fitted under a KIT hold, and a shelf kit of the family, with one entry of the claimed step. -/
def heldKit (e : QueueEntry) : State :=
  withRe (cell .active [] [e]) { claimedHere with holds := [⟨8, 1, .kit 9, .operator, .contact⟩] }

/-- An entry that becomes the head is in PREPARING at that instant (R90) and is tested with the fitted kit at the same
evaluation (R94): a KIT hold on it cedes the step, before any request for it is made (log 64). A head whose cause HOLD the
WON test clears resumes and is tested so too; a WON entry behind a head is not. -/
theorem test_a_new_head_is_tested_with_the_fitted_kit :
    let t := fun e => evaluateDispatch (heldKit e).view (heldKit e).blocks
    let owed := fun (b : Blocks) => (b.du.queue.map fun e => (e.phase, e.cede), b.lc.queue.map SendEntry.body)
    owed (t (queued 500 1 .won)) = ([(.preparing, some .hold)], [.cede 500 1])
      ∧ (t (queued 500 1 .won)).cli.notices = (heldKit (queued 500 1 .won)).blocks.cli.notices
      ∧ owed (t { queued 500 1 .won with cede := some .hold }) = ([(.preparing, some .hold)], [.cede 500 1])
      ∧ owed (evaluateDispatch (heldKit (queued 500 1 .won)).view
          (withDu (heldKit (queued 500 1 .won))
            { State.reset.blocks.du with queue := [queued 300 1 .running, queued 500 1 .won] }).blocks)
        = ([(.running, none), (.won, none)], []) := by decide +kernel

theorem test_meets_CedeAndClearRefusals :
    let s := cell .active [] [queued 300 1 .running, queued 500 1 .won]
    let c := cell .active [] [queued 300 1 .running, { queued 500 1 .won with cede := some .kit }]
    let f := cell .active (List.replicate 6 { entry (.resume 1) .du with host := true }) [queued 500 1 .preparing]
    let r := cell .active [] [queued 500 1 .ready]
    (cell .offline).TakesAtOnce ∧ s.TakesAtOnce ∧ c.TakesAtOnce ∧ f.TakesAtOnce ∧ r.TakesAtOnce
      ∧ r.blocks.du.entry? 500 1 = some (queued 500 1 .ready)
      ∧ (isWorking s.blocks.station = true ∧ s.blocks.du.entry? 100 1 = none
        ∧ s.blocks.du.entry? 300 1 = some (queued 300 1 .running)
        ∧ s.blocks.du.entry? 500 1 = some (queued 500 1 .won)
        ∧ s.blocks.lc.standing (· == .cede 500 1) = false ∧ s.blocks.lc.hostRoom = true)
      ∧ c.blocks.du.entry? 500 1 = some { queued 500 1 .won with cede := some .kit }
      ∧ (f.blocks.du.entry? 500 1 = some (queued 500 1 .preparing) ∧ f.blocks.lc.hostRoom = false) :=
  ⟨takes _ (by decide +kernel), takes _ (by decide +kernel), takes _ (by decide +kernel), takes _ (by decide +kernel),
    takes _ (by decide +kernel), by decide +kernel, by decide +kernel, by decide +kernel, by decide +kernel⟩

/-- The clause of CedeAndClearRefusals on an evaluation: an entry that a hold covers, and one that none covers. -/
theorem test_meets_hold_causes_after_an_evaluation :
    let h := heldKit (queued 500 1 .won)
    let w := withRe (cell .active [] [queued 500 1 .won]) claimedHere
    let l : LotRec := { claimedLot with plan := [⟨spec 15, .claimed 7 50⟩] }
    (h.blocks.steps = [(500, 1)] ∧ w.blocks.steps = [(500, 1)] ∧ l.step? 1 = some ⟨spec 15, .claimed 7 50⟩)
      ∧ (h.re.replica.lot? 500 = some l ∧ w.re.replica.lot? 500 = some l)
      ∧ (h.re.replica.coveredStep l (spec 15) 7 h.blocks.hr.fitted = true
        ∧ w.re.replica.coveredStep l (spec 15) 7 w.blocks.hr.fitted = false)
      ∧ ((evaluateDispatch h.view h.blocks).du.queue.map QueueEntry.phase = [.preparing]
        ∧ (evaluateDispatch h.view h.blocks).du.queue.map QueueEntry.left = [none]
        ∧ (evaluateDispatch w.view w.blocks).du.queue.map QueueEntry.phase = [.preparing])
      ∧ acceptsFrames h.blocks.station = true :=
  ⟨by decide +kernel, by decide +kernel, by decide +kernel, by decide +kernel, by decide +kernel⟩

theorem test_meets_ReleaseConfirmMarksTheLot :
    (cell .active).TakesAtOnce ∧ (cell .active).blocks.du.leaving = false ∧ floor.lot? 999 = none
      ∧ (floor.lot? 100 = some waitingLot ∧ waitingLot.complete = false)
      ∧ (floor.lot? 700 = some otherOwnedLot ∧ otherOwnedLot.complete = true ∧ otherOwnedLot.releaseOwner ≠ some 7)
      ∧ (floor.lot? 200 = some completeLot ∧ completeLot.complete = true ∧ completeLot.releaseOwner = some 7) :=
  ⟨takes _ (by decide +kernel), rfl, by decide +kernel, by decide +kernel, by decide +kernel, by decide +kernel⟩

/-- A member cell whose Hold List has two entries of the one hold ID 7:3, the older of level OPERATOR (log 25). -/
def heldTwice : State :=
  withRe (cell .active) { floor with holds := [⟨7, 3, .kit 9, .operator, .host⟩, ⟨7, 3, .kit 12, .quality, .host⟩] }

theorem test_meets_HoldRequestsAreAnswered :
    let full := withRe (cell .active) { floor with holds := List.replicate 32 ⟨8, 0, .device 99, .operator, .yield⟩ }
    let noRoom := cell .active (List.replicate 6 { entry (.resume 1) .du with host := true })
    (asQuality (cell .active)).TakesAtOnce ∧ (cell .offline).TakesAtOnce ∧ heldTwice.TakesAtOnce
      ∧ full.TakesAtOnce ∧ noRoom.TakesAtOnce
      ∧ (isWorking (cell .offline).blocks.station = false ∧ isMember (cell .offline).blocks.station = false
        ∧ isMember (cell .active).blocks.station = true ∧ isWorking (cell .active).blocks.station = true)
      ∧ (holdTargetOf 6 12 = none ∧ holdTargetOf 4 12 = some (.kit 12) ∧ holdTargetOf 5 63 = some (.station 63)
        ∧ targetInRange (.kit 12) = true ∧ targetInRange (.station 63) = false)
      ∧ (levelOf 3 = none ∧ levelOf 1 = some .operator ∧ levelOf 2 = some .quality)
      ∧ ((cell .active).config.authority = .operator ∧ (asQuality (cell .active)).config.authority = .quality)
      ∧ ((cell .active).re.replica.heldAs (.kit 12) = true ∧ (cell .active).re.replica.heldAs (.kit 9) = false
        ∧ ownHoldOn (cell .active).blocks (.kit 9) = false)
      ∧ (full.re.replica.holds.length = 32 ∧ noRoom.blocks.lc.hostRoom = false
        ∧ (cell .active).blocks.lc.hostRoom = true)
      ∧ ((cell .active).re.replica.hold? 1 3 = none
        ∧ (cell .active).re.replica.hold? 7 3 = some ⟨7, 3, .kit 12, .quality, .host⟩
        ∧ heldTwice.re.replica.hold? 7 3 = some ⟨7, 3, .kit 9, .operator, .host⟩) :=
  ⟨takes _ (by decide +kernel), takes _ (by decide +kernel), takes _ (by decide +kernel), takes _ (by decide +kernel),
    takes _ (by decide +kernel), by decide +kernel, by decide +kernel, by decide +kernel, by decide +kernel,
    by decide +kernel, by decide +kernel, by decide +kernel⟩

/-- A PLACE HOLD and a LIFT HOLD are answered OK and enqueued (R151, R156); of two entries of one hold ID the older one's
level decides (log 25). -/
theorem test_hold_requests_are_enqueued :
    (after (.placeHold 4 9 1) (cell .active)).blocks.lc.queue.map SendEntry.body
        = [.hold (nextSerial (cell .active).view (cell .active).blocks) (.kit 9) .operator .host]
      ∧ (after (.liftHold 7 3) heldTwice).blocks.lc.queue.map SendEntry.body = [.lift 7 3]
      ∧ (after (.liftHold 7 3) (cell .active)).blocks.lc.queue = []
      ∧ (after (.liftHold 7 3) (asQuality (cell .active))).blocks.lc.queue.map SendEntry.body = [.lift 7 3] := by
  decide +kernel

theorem test_meets_KitRequestsAreAnswered : (cell .active).TakesAtOnce := takes _ (by decide +kernel)

/-- A cell with the given kit fitted. -/
def fittedAs (st : StationState) (k : Option Nat) : State := (cell st).withHr ⟨k, .ambient, true, none, []⟩

/-- The cell with a kit request in REMOVAL for a family, a kit fitted or none. -/
def removing (st : StationState) (family : Nat) (fitted : Option Nat) : State :=
  (cell st).withHr ⟨fitted, .ambient, true, some ⟨500, 1, family, .removal, none, []⟩, []⟩

theorem test_meets_FittedKitIsRecorded :
    (fittedAs .active none).TakesAtOnce ∧ (fittedAs .active (some 9)).TakesAtOnce ∧ (fittedAs .offline none).TakesAtOnce
      ∧ (inserting .idle).TakesAtOnce ∧ (fittedAs .active (some 10)).TakesAtOnce
      ∧ kitAtHere (cell .active).view 9 = true ∧ kitAtHere (cell .active).view 10 = false
      ∧ (cell .active).blocks.lc.inTransmission (.kitGive 9) = false
      ∧ (cell .active).blocks.lc.standing (· == .kitGive 9) = false
      ∧ (inserting .idle).blocks.du.headInRun = true ∧ (cell .active).blocks.du.headInRun = false
      ∧ ((removing .active 3 none).TakesAtOnce ∧ (removing .active 4 none).TakesAtOnce
        ∧ (removing .faulted 4 (some 9)).TakesAtOnce)
      ∧ (usableFitted (cell .active).view { (cell .active).blocks.hr with fitted := some 9 } 3).isSome = true
      ∧ (usableFitted (cell .active).view { (cell .active).blocks.hr with fitted := some 9 } 4).isSome = false
      ∧ (fittedAs .active none).blocks.hr.fitted ≠ some 9
      ∧ (let r := (⟨500, 1, 3, .fitting, some 9, []⟩ : KitRequest)
        let s := (withRe (cell .active [] [queued 500 1 .preparing]) claimedHere).withHr ⟨none, .ambient, true, some r, []⟩
        s.blocks.hr.fitted ≠ some 9 ∧ kitAtHere s.view 9 = true ∧ s.blocks.hr.request = some r
          ∧ r.phase ≠ .removal ∧ (after (.kitRemoved 9) s).blocks.hr.request = some r) :=
  ⟨takes _ (by decide +kernel), takes _ (by decide +kernel), takes _ (by decide +kernel), takes _ (by decide +kernel),
    takes _ (by decide +kernel), by decide +kernel, by decide +kernel, by decide +kernel, by decide +kernel,
    by decide +kernel, by decide +kernel,
    ⟨takes _ (by decide +kernel), takes _ (by decide +kernel), takes _ (by decide +kernel)⟩, by decide +kernel,
    by decide +kernel, by decide +kernel, by decide +kernel⟩

theorem test_meets_BandRequestsAreTaken : (cell .offline).TakesAtOnce ∧ (cell .faulted).TakesAtOnce :=
  ⟨takes _ (by decide +kernel), takes _ (by decide +kernel)⟩

theorem test_meets_EndStepAndSiteRestoreAreTaken :
    (cell .offline).TakesAtOnce ∧ (cell .active).TakesAtOnce ∧ (inserting .idle).TakesAtOnce
      ∧ (inserting (.inTest 1 50)).TakesAtOnce ∧ (cell .active).blocks.du.queue = []
      ∧ (inserting .idle).blocks.du.queue = queued 300 1 .running :: [] ∧ (inserting .idle).blocks.iw.counters.step = 1
      ∧ (inserting .idle).re.replica.step? 300 1 = some ⟨spec 13, .running 7 9 50⟩
      ∧ (cell .active).config.siteCount = 5
      ∧ ((cell .active).blocks.iw.site 2).state = .masked ∧ ((cell .active).blocks.iw.site 2).masks = 2
      ∧ ((cell .active).blocks.iw.site 3).state = .masked ∧ ((cell .active).blocks.iw.site 3).masks = 3
      ∧ ((cell .active).blocks.iw.site 1).state ≠ .masked ∧ ((cell .active).blocks.iw.site 5).state ≠ .masked
      ∧ (inserting (.waitingGate 3)).TakesAtOnce ∧ (inserting .idle).blocks.iw.counters.entered = 50 :=
  ⟨takes _ (by decide +kernel), takes _ (by decide +kernel), takes _ (by decide +kernel), takes _ (by decide +kernel),
    rfl, rfl, rfl, by decide +kernel, rfl, by decide +kernel, by decide +kernel, by decide +kernel, by decide +kernel,
    by decide +kernel, by decide +kernel, takes _ (by decide +kernel), rfl⟩

/-- A step with more units counted than entered ends with no STEP TALLY (R52, R161, log 42). -/
theorem test_no_tally_out_of_balance :
    let s := inserting (.waitingGate 3)
    let t := fun entered => after (.endStep 300 1)
      (s.withIw { s.blocks.iw with counters := { s.blocks.iw.counters with entered := entered } })
    (t 19).blocks.lc.queue = [] ∧ (t 19).blocks.du.queue.map QueueEntry.phase = [.ending]
      ∧ (t 50).blocks.lc.queue = [entry (.stepTally 300 1 9 50 18 2 30 10) .iw] ∧ (t 50).blocks.iw.insertion = .idle := by
  decide +kernel

/-- An entry that ended with its spent lot is lost after all where an installed replica shows the lot (R74, R88), and one
whose tallied lot is withdrawn before the reconcile is lost by that. -/
theorem test_ended_entries :
    let e := { queued 100 1 .ending with left := some LeftCause.ended }
    let v := (cell .active).view
    let gone := { floor with lots := floor.lots.drop 1 }
    lostCause v true e = none ∧ lostCause v true (unmarkIfShown v e) = some .notOwnAfterCatchUp
      ∧ (markEntry { v with rep := gone } ⟨floor, 8, false, .withdraw 100, true⟩ (queued 100 1 .ending)).left
        = some .withdrawn := by decide +kernel

/-! ### The work of the blocks -/

/-- An own CEDE heard in JOINING is owed no longer, so none is enqueued again (R95, log 59). -/
theorem test_a_cede_heard_in_joining_is_owed_no_longer :
    let s := (withRe (cell .joining [] [{ queued 500 1 .won with cede := some .host }]) claimedHere).withLc
      ⟨[{ entry (.cede 500 1) .du with inTx := true, host := true }], [], .sending, some ⟨.cede 500 1, 63⟩, 5⟩
    let t := after (.frameEnd .own) s
    t.blocks.lc.queue = [] ∧ t.blocks.du.queue.map QueueEntry.cede = [none]
      ∧ t.blocks.du.queue.map QueueEntry.left = [some .ceded] := by
  decide +kernel

/-- A CEDE of a peer strapped with this station's ID takes the step, but not as ceded (R7, R88). -/
theorem test_a_namesakes_cede_is_not_own :
    let s := withRe (cell .active [] [queued 500 1 .won]) claimedHere
    let t := after (.frameEnd (.whole (buildFrame 7 63 (.cede 500 1)))) s
    s.re.replica.step? 500 1 = some ⟨spec 15, .claimed 7 50⟩ ∧ t.re.replica.step? 500 1 = some ⟨spec 15, .waiting 50⟩
      ∧ t.blocks.du.queue = [] ∧ .claimLost 500 1 .notOwn none ∈ t.blocks.cli.notices := by
  decide +kernel

/-- A cell on that floor with its head in a phase, given slots and a kit fitted. -/
def preparing (ph : EntryPhase) (active staged : SlotRec) (op : Option Operation := none) : State :=
  withRe ((cell .active [] [queued 500 1 ph]).withLe ⟨active, staged, op, [], []⟩ false) claimedHere

def prog : SlotProgram := ⟨15, 1, 7, 2, 2, 0⟩
def unknownSlot : SlotRec := ⟨.unknown, none⟩

/-- A cell that sends a frame, with the blocks of another. -/
def sends (s : State) (b : FrameBody) : State := s.withLc (sending .active b 0).blocks.lc

theorem own_hearing (s : State) (b : FrameBody) (h : (s.blocks.station != .offline && b.isState
    && s.blocks.cu.phase != .receiving) = true) : (sends s b).Hearing .own s.stationId s.config.authority b := by
  simp only [Bool.and_eq_true, bne_iff_ne, ne_eq] at h
  exact .own ⟨b, 63⟩ rfl h.1.1 h.1.2 h.2

theorem test_meets_DispatchQueueLives :
    let s := cell .active [] [queued 300 1 .running]
    let p := preparing .preparing ⟨.verified, some prog⟩ unknownSlot
    let w := preparing .won unknownSlot unknownSlot
    let r := preparing .ready ⟨.verified, some prog⟩ unknownSlot
    (floor.lot? 100 = some waitingLot ∧ waitingLot.step? 1 = some ⟨spec 11, .waiting 50⟩
        ∧ isMember s.blocks.station = true ∧ s.blocks.du.leaving = false
        ∧ s.re.replica.step? 300 1 = some ⟨spec 13, .running 7 9 50⟩)
      ∧ (sends s (.bid 100 1)).Hearing .own 7 .operator (.bid 100 1)
      ∧ (∀ e, stillMine s.view e = true ↔ ∃ z n, s.view.rep.step? e.lot e.step = some z ∧
          (z.state = .claimed s.view.id n ∨ ∃ kit, z.state = .running s.view.id kit n))
      ∧ (stillMine s.view (queued 500 1 .won) = false ∧ talliedHere s.view (queued 500 1 .won) = false
        ∧ talliedHere s.view (queued 200 1 .ending) = true ∧ beforeRun .ending = false)
      ∧ (s.blocks.steps.Nodup ∧ (evaluateDispatch s.view s.blocks).du.queue.length = 1)
      ∧ (w.blocks.steps.Nodup ∧ isWorking w.blocks.station = true
        ∧ (evaluateDispatch w.view w.blocks).du.queue.map (fun e => (e.cede, e.phase)) = [(none, .preparing)])
      ∧ ready p.view p.blocks (queued 500 1 .preparing) = true ∧ p.blocks.hr.fitted = some 9
      ∧ (claimedHere.step? 500 1 = some ⟨spec 15, .claimed 7 50⟩ ∧ r.blocks.du.queue = queued 500 1 .ready :: [])
      ∧ (sends r (.stepStart 500 1 9)).Hearing .own 7 .operator (.stepStart 500 1 9) :=
  ⟨by decide +kernel, own_hearing _ _ (by decide +kernel), stillMine_iff _, by decide +kernel, by decide +kernel,
    by decide +kernel, by decide +kernel, rfl, by decide +kernel, own_hearing _ _ (by decide +kernel)⟩

theorem test_own_step_start_runs :
    (after (.frameEnd .own) (sends (preparing .ready ⟨.verified, some prog⟩ unknownSlot) (.stepStart 500 1 9))).blocks.du.queue.map
      (fun e => (e.key, e.phase)) = [((500, 1), .running)] := by decide +kernel

/-- A cell with a kit request of its head, family 3, and a fitted kit. -/
def asking (r : KitRequest) (fitted : Option Nat) (gives : List Nat) : State :=
  let s := preparing .preparing unknownSlot unknownSlot
  { s with blocks := { s.blocks with hr := ⟨fitted, .ambient, true, some r, gives⟩ } }

def taking : KitRequest := ⟨500, 1, 3, .taking, some 10, []⟩

def here (v : View) (b : Blocks) (r : KitRequest) (k : KitRec) : Bool :=
  k.location = .at v.id ∧ k.family = r.family ∧ k.count < k.limit ∧ v.rep.heldAs (.kit k.kit) = false ∧ k.kit ∉ b.hr.gives

def shelf (v : View) (r : KitRequest) (k : KitRec) : Bool :=
  k.location = .shelf ∧ k.family = r.family ∧ k.count < k.limit ∧ v.rep.heldAs (.kit k.kit) = false ∧ k.kit ∉ r.tried

/-- The five cases of the choice, its own TAKE heard, a request that stays, one that ends. -/
theorem test_meets_KitRequestsChooseAndEnd :
    let s := asking taking none [9]
    let h := asking taking none []
    let t := asking { taking with tried := [10] } none [9]
    rising (s.view.rep.kits.map KitRec.kit) = true
      ∧ (∀ k, here s.view s.blocks taking k = true ↔ k.location = .at s.view.id ∧ k.family = taking.family
        ∧ k.count < k.limit ∧ s.view.rep.heldAs (.kit k.kit) = false ∧ k.kit ∉ s.blocks.hr.gives)
      ∧ (∀ k, shelf s.view taking k = true ↔ k.location = .shelf ∧ k.family = taking.family ∧ k.count < k.limit
        ∧ s.view.rep.heldAs (.kit k.kit) = false ∧ k.kit ∉ taking.tried)
      ∧ usableFitted s.view ⟨some 9, .ambient, true, none, []⟩ 3 = some 9
      ∧ usableFitted s.view ⟨some 9, .ambient, true, none, []⟩ 4 = none
      ∧ (here h.view h.blocks taking ⟨9, 3, .at 7, 5, 100⟩ = true
        ∧ ∀ d ∈ h.view.rep.kits, here h.view h.blocks taking d = true → 9 ≤ d.kit)
      ∧ ((∀ d ∈ s.view.rep.kits, here s.view s.blocks taking d = false) ∧ s.blocks.station ≠ .isolated
        ∧ shelf s.view taking ⟨10, 3, .shelf, 0, 10⟩ = true ∧ ∀ d ∈ s.view.rep.kits, shelf s.view taking d = true → 10 ≤ d.kit)
      ∧ (∀ d ∈ t.view.rep.kits, shelf t.view { taking with tried := [10] } d = false)
      ∧ (s.blocks.hr.request = some taking ∧ s.blocks.du.queue = queued 500 1 .preparing :: []
        ∧ s.re.replica.step? 500 1 = some ⟨spec 15, .claimed 7 50⟩
        ∧ s.re.replica.kit? 10 = some ⟨10, 3, .shelf, 0, 10⟩
        ∧ ((s.re.replica.lot? 500).map fun l => s.re.replica.coveredStep l (spec 15) s.stationId s.blocks.hr.fitted)
          = some false)
      ∧ (sends s (.kitTake 10)).Hearing .own 7 .operator (.kitTake 10)
      ∧ s.finish.blocks.hr.request.isSome = true :=
  ⟨by decide +kernel, fun _ => decide_eq_true_iff, fun _ => decide_eq_true_iff, by decide +kernel, by decide +kernel,
    by decide +kernel, by decide +kernel, by decide +kernel, by decide +kernel, own_hearing _ _ (by decide +kernel),
    by decide +kernel⟩

/-- An operation in flight that is unwanted, wanted, a PURGE, a SWAP; the head's four operations; the two behind a
running head; a LOAD issued at the end of a command. -/
theorem test_meets_LoadEngineChooses :
    let w := preparing .preparing ⟨.loading, some prog⟩ unknownSlot (some ⟨.load, some .active, 5⟩)
    let p := preparing .preparing ⟨.loaded, some prog⟩ unknownSlot
    let st := preparing .preparing unknownSlot ⟨.verified, some prog⟩
    let r := (cell .active [] [queued 300 1 .running, queued 100 1 .won]).withLe
      ⟨⟨.verified, some ⟨13, 1, 7, 2, 2, 0⟩⟩, ⟨.loaded, some ⟨11, 1, 7, 2, 2, 0⟩⟩, none, [], []⟩ false
    let u := loading .load .loading 1 0
    (u.blocks.le.op = some ⟨.load, some .active, 5⟩ ∧ (u.blocks.le.slot .active).prog = some ⟨14, 1, 7, 2, 1, 0⟩
        ∧ wanted u.view u.blocks (14, 1) = false)
      ∧ (w.blocks.le.op = some ⟨.load, some .active, 5⟩ ∧ (w.blocks.le.slot .active).prog = some prog
        ∧ w.view.rep.heldAs (.program 15 1) = false ∧ wanted w.view w.blocks (15, 1) = true)
      ∧ (preparing .preparing unknownSlot unknownSlot (some ⟨.swap, none, 5⟩)).blocks.le.op = some ⟨.swap, none, 5⟩
      ∧ (p.blocks.le.op = none ∧ isWorking p.blocks.station = true ∧ p.blocks.du.queue = queued 500 1 .preparing :: []
        ∧ p.view.rep.step? 500 1 = some ⟨spec 15, .claimed 7 50⟩ ∧ (prog.program, prog.revision) = (spec 15).pair
        ∧ p.view.rep.heldAs (.program 15 1) = false ∧ p.blocks.le.active = ⟨.loaded, some prog⟩)
      ∧ (st.blocks.le.active.presents (15, 1) = false ∧ st.blocks.le.staged = ⟨.verified, some prog⟩
        ∧ readyButSlot st.view st.blocks (queued 500 1 .preparing) = true)
      ∧ (∀ l ∈ p.view.rep.lots, ∀ x ∈ l.plan, x.state.runningAt p.view.id = false)
      ∧ (r.blocks.le.op = none ∧ r.blocks.du.queue = queued 300 1 .running :: ([] ++ queued 100 1 .won :: [])
        ∧ r.blocks.le.active.state = .verified ∧ wanted r.view r.blocks (11, 1) = true
        ∧ r.view.rep.heldAs (.program 11 1) = false ∧ r.view.rep.step? 100 1 = some ⟨spec 11, .waiting 50⟩
        ∧ r.blocks.le.active.presents (11, 1) = false)
      ∧ (let t := (preparing .preparing unknownSlot unknownSlot).finish;
        t.blocks.le.op = some ⟨.load, some .active, 500⟩ ∧ (t.blocks.le.slot .active).prog = some ⟨15, 1, 7, 2, 0, 0⟩) := by
  decide +kernel

theorem test_meets_AutomaticHoldsAreChecked :
    (acceptsFrames .faulted = false ∧ acceptsFrames .active = true
        ∧ floor.heldAs (.kit 12) = true ∧ floor.heldAs (.lot 100) = false
        ∧ ownHoldOn (cell .active).blocks (.lot 100) = false ∧ floor.holds.length < 32
        ∧ ownHoldOn (cell .active [entry (.hold 1 (.lot 100) .quality .yield) .iw]).blocks (.lot 100) = true
        ∧ 32 ≤ (List.replicate 32 (⟨8, 0, .device 99, .operator, .yield⟩ : HoldEntry)).length)
      ∧ (let s := sending .active (.hold 1 (.lot 100) .quality .yield) 2;
        s.blocks.lc.tx = some ⟨.hold 1 (.lot 100) .quality .yield, 63⟩
          ∧ s.blocks.lc.queue.find? (fun y => y.inTx)
            = some { entry (.hold 1 (.lot 100) .quality .yield) .du with inTx := true, faults := 2 })
      ∧ ((cell .offline).TakesAtOnce ∧ (cell .faulted).TakesAtOnce ∧ (cell .faulted).blocks.station = .faulted
        ∧ (cell .offline).blocks.lc.standing (isHoldOn (.lot 100)) = false) :=
  ⟨by decide +kernel, by decide +kernel, takes _ (by decide +kernel), takes _ (by decide +kernel), rfl, by decide +kernel⟩

theorem test_pending_hold_goes_out :
    let s := cell .faulted
    let t := after .rejoin (s.withIw { s.blocks.iw with pendingHolds := [⟨.lot 100, .quality, .yield⟩] })
    t.blocks.lc.queue.map SendEntry.body = [.hold 0 (.lot 100) .quality .yield, blankBeacon]
      ∧ t.blocks.iw.pendingHolds = [] := by
  decide +kernel

/-- The four cases of the release check, a record that stands and a fresh one, and the checks of a whole floor. -/
theorem test_meets_ReleaseCheckTestsTheLot :
    let b := (cell .active).blocks
    (b.du.releases = [] ∧ completeLot.complete = true)
      ∧ (setReleases [⟨200, true, true, true⟩] b).du.releases = [] ++ ⟨200, true, true, true⟩ :: []
      ∧ (({ completeLot with lostAllowance := 0 } : LotRec).lostAllowance < completeLot.totalLost
        ∧ completeLot.totalLost ≤ completeLot.lostAllowance ∧ completeLot.suspended = false
        ∧ floor.coveredLot completeLot = false ∧ completeLot.holdHistory = true ∧ completeLot.confirmed = false
        ∧ completeLot.plan.getLast? = some ⟨spec 11, .tallied 7 9 50 48 1 1 20⟩)
      ∧ (isWorking (cell .offline).blocks.station = false ∧ isWorking b.station = true
        ∧ rising (floor.lots.map LotRec.lot) = true)
      ∧ (cell .active).Hearing (.whole (buildFrame 8 63 (.resume 1))) 8 .quality (.resume 1)
      ∧ (cell .active).replicaInv :=
  ⟨by decide +kernel, rfl, by decide +kernel, by decide +kernel, hearing _ _ _ _ (by decide +kernel) (by decide +kernel),
    by decide +kernel, rfl, rfl⟩

theorem test_meets_FramesAreReadBack :
    (FrameBody.post ⟨4294967295, 65535, 65535, 255, List.replicate 6 ⟨65535, 255, 256, 0xFFFFFFFF, .hot, 255, 0xFFFF⟩⟩).wf
      = true ∧ (FrameBody.stepTally 0 0 0 0 0 0 0 0).wf = true
      ∧ (⟨0, 0, 0, List.replicate 127 0, 0⟩ : RxFrame).payload.length < 128 ∧ 11 ≤ 7 + 4 ∧ 7 + 3 < 11 := by
  decide +kernel

/-! ### One command each -/

/-- A cell whose head runs lot 300 with its kit, band and program in place, and the gate open. -/
def running (i : Insertion) : State :=
  ((gated true (inserting i)).withLe
    { State.reset.blocks.le with active := ⟨.verified, some ⟨13, 1, 7, 2, 2, 0⟩⟩ } false)

theorem test_join_listens : (after .join (cell .offline)).blocks.station = .listening := by decide +kernel

theorem test_bid_goes_out : (after .transmitStart bidQueued).blocks.lc.tx = some ⟨.bid 100 1, 63⟩ := by decide +kernel

theorem test_own_bid_wins : (after (.frameEnd .own) (after .transmitStart bidQueued)).blocks.steps = [(100, 1)] := by
  decide +kernel

theorem test_peer_bid_claims :
    (after (.frameEnd (.whole (buildFrame 8 63 (.bid 100 1)))) (cell .active)).re.replica.step? 100 1
      = some ⟨spec 11, .claimed 8 50⟩ := by decide +kernel

theorem test_seat_issues_go :
    let t := after (.seat 0x13) (running .idle)
    t.blocks.iw.go = true ∧ t.blocks.iw.en = 0x11 ∧ t.blocks.iw.insertion = .inTest 0x11 10000 := by decide +kernel

theorem test_verdict_counts_pass_and_fail :
    let t := after (.verdict 0x10002000) (running (.inTest 0x11 50))
    (t.blocks.iw.counters.pass, t.blocks.iw.counters.fail, t.blocks.iw.counters.insertions) = (19, 3, 11) := by
  decide +kernel

theorem test_block_ok_advances :
    (after (.blockOk 1 1) (loading .load .loading 1 0)).blocks.le.active.prog = some ⟨14, 1, 7, 2, 2, 0⟩ := by
  decide +kernel

theorem test_third_fault_is_faulted : (after .transmitFault (sending .active (.bid 100 1) 2)).blocks.station = .faulted := by
  decide +kernel

theorem test_status_is_answered :
    ((after .status (cell .active)).blocks.cli.resp.map fun r => (r.type, r.code)) = some (6, .ok) := by decide +kernel

theorem test_fifth_request_overruns :
    (after .status (answering 4)).blocks.cli.discards = [.badFrame, .overrun 6] := by decide +kernel

theorem test_site_three_retires : ((after (.siteRestore 3) (cell .active)).blocks.iw.site 3).state = .retired := by
  decide +kernel

theorem test_power_on_reads_the_straps : (after (.powerOnReset 7) (cell .active)).stationId = 7 := by decide +kernel

end Sys2Proof.Tests
end

section
/-! The tier of a step (R82): what it is for a slot to present a program, one equation for each row of R82's table, and
the obligation O31 put together from them. -/

namespace Sys2Proof.Machine

/-- A slot presents a program exactly when its record names it in a state that R82 counts as present. -/
theorem SlotRec.presents_iff (r : SlotRec) (p : Nat × Nat) :
    r.presents p = true ↔ (r.state = .loaded ∨ r.state = .verifying ∨ r.state = .verified) ∧
      ∃ q, r.prog = some q ∧ q.program = p.1 ∧ q.revision = p.2 := by
  obtain ⟨state, prog⟩ := r
  cases prog with
  | none => simp [SlotRec.presents]
  | some q => simp [SlotRec.presents, or_assoc]

/-- R82, tier 3: the step needs a kit change. -/
theorem tier_of_kit_change {v : View} {b : Blocks} {sp : StepSpec} (hkit : usableFitted v b.hr sp.family = none) :
    tier v b sp = 3 := by
  simp [tier, hkit]

/-- With a usable kit fitted, the tier is read from the band and the slots alone. -/
theorem tier_of_kit_fitted {v : View} {b : Blocks} {sp : StepSpec} (hkit : usableFitted v b.hr sp.family ≠ none) :
    tier v b sp = if b.hr.band ≠ sp.band then 2
      else if ¬ (b.le.active.presents sp.pair ∨ b.le.staged.presents sp.pair) then 1 else 0 := by
  simp [tier, hkit]

/-- R82, tier 2: the kit is in place, the band is not. -/
theorem tier_of_band_change {v : View} {b : Blocks} {sp : StepSpec} (hkit : usableFitted v b.hr sp.family ≠ none)
    (hband : b.hr.band ≠ sp.band) : tier v b sp = 2 := by
  rw [tier_of_kit_fitted hkit, if_pos hband]

/-- R82, tiers 1 and 0: the kit and the band are in place, and the slots decide. -/
theorem tier_of_kit_and_band {v : View} {b : Blocks} {sp : StepSpec} (hkit : usableFitted v b.hr sp.family ≠ none)
    (hband : b.hr.band = sp.band) :
    tier v b sp = if ¬ (b.le.active.presents sp.pair ∨ b.le.staged.presents sp.pair) then 1 else 0 := by
  rw [tier_of_kit_fitted hkit, if_neg (not_not_intro hband)]

/-- Settles O31, by one equation of the tier for each row of R82's table; the statement's presence is `presents`. -/
theorem tierIsTheFirstThatApplies : Obligations.TierIsTheFirstThatApplies := by
  intro v b sp present hpresent
  have present_iff (r : SlotRec) : present r ↔ r.presents sp.pair = true :=
    (hpresent r).trans (r.presents_iff sp.pair).symm
  refine ⟨tier_of_kit_change, tier_of_band_change, ?missing, ?inPlace⟩
  case missing =>
    intro hkit hband hactive hstaged
    rw [present_iff] at hactive hstaged
    rw [tier_of_kit_and_band hkit hband, if_pos (not_or_intro hactive hstaged)]
  case inPlace =>
    intro hkit hband hslots
    rw [present_iff, present_iff] at hslots
    rw [tier_of_kit_and_band hkit hband, if_neg (not_not_intro hslots)]

end Sys2Proof.Machine
end

section
/-! The SITEOFF lines (R131): when a site counts as enabled, when it does not, and the obligation O44 read off from the
two. -/

namespace Sys2Proof.Machine

/-- A site whose state is not ENABLED is MASKED or RETIRED: R130 names no fourth state. -/
theorem SiteState.ne_enabled_iff (x : SiteState) : x ≠ .enabled ↔ x = .masked ∨ x = .retired := by
  cases x <;> decide

/-- A site is in use when its number is one of the configured ones, at most 8, and its record is ENABLED (R130). -/
theorem siteEnabled_iff (v : View) (w : InsertionWatch) (n : Nat) :
    siteEnabled v w n = true ↔ 1 ≤ n ∧ n ≤ v.cfg.siteCount ∧ n ≤ 8 ∧ (w.site n).state = .enabled := by
  simp [siteEnabled, and_assoc]

/-- SITEOFFn is asserted exactly while site `n` is not in use. -/
theorem State.siteOff_iff (s : State) (n : Nat) :
    s.siteOff n = true ↔ ¬ siteEnabled s.view s.blocks.iw n = true := by
  simp [State.siteOff]

/-- Settles O44: one of the eight sites is out of use by its number or by the state of its record (R131). -/
theorem siteOffFollowsTheSites : Obligations.SiteOffFollowsTheSites := by
  intro s n one_le le_eight
  have enabled_iff : siteEnabled s.view s.blocks.iw n = true ↔
      n ≤ s.config.siteCount ∧ (s.blocks.iw.site n).state = .enabled :=
    (siteEnabled_iff s.view s.blocks.iw n).trans
      ⟨fun ⟨_, hcount, _, hstate⟩ => ⟨hcount, hstate⟩, fun ⟨hcount, hstate⟩ => ⟨one_le, hcount, le_eight, hstate⟩⟩
  calc s.siteOff n = true
      ↔ ¬ (n ≤ s.config.siteCount ∧ (s.blocks.iw.site n).state = .enabled) := by
        rw [State.siteOff_iff, enabled_iff]
    _ ↔ s.config.siteCount < n ∨ (s.blocks.iw.site n).state ≠ .enabled := by
        rw [not_and_or, not_le]
    _ ↔ _ := by
        rw [SiteState.ne_enabled_iff]

end Sys2Proof.Machine
end

section
/-! The bounds of the stores, the lines of GO and the snapshot under reception (R6, R8, R71, R72, R99, R136, R173 to
R175): what it is that an operation keeps them, and that the shared operations on notices and on the Send Queue do. The
block parts of O6, O7 and O8 are read off it. -/

namespace Sys2Proof.Machine

/-! ### The predicates -/

/-- The Send Queue and its host share within their bounds; no offer that waits has the host share mark (R8, R9). -/
def LinkController.Bounded (lc : LinkController) : Prop :=
  lc.queue.length ≤ Config.maxSend ∧ lc.hostShare ≤ Config.maxHostShare ∧ ∀ e ∈ lc.waiting, e.host = false

/-- The stores of the Cell Line Interface within their bounds (R173 to R175). -/
def CellLineInterface.Bounded (c : CellLineInterface) : Prop :=
  c.fifo.length ≤ Config.maxFifo ∧ c.discards.length ≤ Config.maxDiscards ∧ c.unreported ≤ 65535 ∧
    c.notices.length ≤ Config.maxNotices

/-- Every store of the blocks within its bound (R6, R8, R72, R99, R173 to R175). -/
def Blocks.Stores (b : Blocks) : Prop :=
  b.lc.Bounded ∧ b.lc.junk ≤ 65535 ∧ b.cu.buffer.length ≤ Config.maxBuffer ∧
    b.du.refusals.length ≤ Config.maxRefusals ∧ b.cli.Bounded

/-- GO stands only over an insertion in test with the gate open, the enable lines only with GO (R136). -/
def InsertionWatch.GoOverTest (w : InsertionWatch) : Prop :=
  (w.go = true → w.gate = true ∧ ∃ n, w.insertion = .inTest w.en n) ∧ (w.go = false → w.en = 0)

/-- The stores stay within their bounds, a snapshot under reception stays sound, and GO stays over an insertion in
test, each whatever becomes of the other two. -/
structure Keeps (b c : Blocks) : Prop where
  stores : b.Stores → c.Stores
  copy : copySound b.cu.copy = true → copySound c.cu.copy = true
  go : b.iw.GoOverTest → c.iw.GoOverTest

theorem Keeps.refl (b : Blocks) : Keeps b b := ⟨id, id, id⟩

theorem Keeps.trans {a b c : Blocks} (h : Keeps a b) (k : Keeps b c) : Keeps a c :=
  ⟨fun x => k.stores (h.stores x), fun x => k.copy (h.copy x), fun x => k.go (h.go x)⟩

theorem Keeps.ite {p : Prop} [Decidable p] {a b c : Blocks} (h : Keeps a b) (k : Keeps a c) :
    Keeps a (if p then b else c) := by
  split
  · exact h
  · exact k

/-! ### Notices -/

theorem raiseCli_bounded (n : Notice) {c : CellLineInterface} (h : c.Bounded) : (raiseCli n c).Bounded := by
  obtain ⟨hfifo, hdiscards, hunreported, hnotices⟩ := h
  unfold raiseCli
  split
  · next room => exact ⟨hfifo, hdiscards, hunreported, by simpa using Nat.succ_le_of_lt room⟩
  · exact ⟨hfifo, hdiscards, hunreported, hnotices⟩

theorem raise_keeps (n : Notice) (b : Blocks) : Keeps b (raise n b) :=
  ⟨fun ⟨hlc, hjunk, hbuffer, hrefusals, hcli⟩ => ⟨hlc, hjunk, hbuffer, hrefusals, raiseCli_bounded n hcli⟩, id, id⟩

/-! ### The Send Queue (R8 to R11) -/

theorem hostRoom_iff (lc : LinkController) :
    lc.hostRoom = true ↔ lc.hostShare < Config.maxHostShare ∧ lc.queue.length < Config.maxSend := by
  simp [LinkController.hostRoom]

theorem insertEntry_hosts (e : SendEntry) (q : List SendEntry) :
    ((insertEntry e q).filter fun x => x.host).length
      = (q.filter fun x => x.host).length + if e.host then 1 else 0 := by
  induction q with
  | nil => cases he : e.host <;> simp [insertEntry, he]
  | cons x xs ih =>
    unfold insertEntry
    split
    · cases he : e.host <;> simp [List.filter_cons, he]
    · cases hx : x.host <;> simp [hx, ih]; omega

/-- An entry that joins a queue with room, and with room for its share, leaves the bounds. -/
theorem LinkController.Bounded.insert {lc : LinkController} (h : lc.Bounded) (e : SendEntry)
    (room : lc.queue.length < Config.maxSend) (share : e.host = true → lc.hostShare < Config.maxHostShare) :
    LinkController.Bounded { lc with queue := insertEntry e lc.queue } := by
  obtain ⟨_, hhost, hwaiting⟩ := h
  refine ⟨by rw [insertEntry_length]; exact room, ?_, hwaiting⟩
  have hcount := insertEntry_hosts e lc.queue
  simp only [LinkController.hostShare] at hhost share ⊢
  cases he : e.host
  · simp only [he, Bool.false_eq_true, if_false] at hcount; omega
  · have := share he
    simp only [he, if_true] at hcount; omega

theorem grantOne_bounded {lc : LinkController} (h : lc.Bounded) : (grantOne lc).Bounded := by
  unfold grantOne
  split
  · next room =>
    split
    · next e he =>
      have internal : e.host = false := h.2.2 e (nextOffer_mem _ _ he)
      obtain ⟨hlength, hhost, _⟩ := h.insert e room fun k => absurd k (by simp [internal])
      exact ⟨hlength, hhost, fun x hx => h.2.2 x (List.mem_of_mem_erase hx)⟩
    · exact h
  · exact h

theorem grants_bounded (n : Nat) : ∀ {lc : LinkController}, lc.Bounded → (grants n lc).Bounded := by
  induction n with
  | zero => exact fun h => h
  | succ n ih => exact fun h => ih (grantOne_bounded h)

theorem refill_bounded (n : Nat) {lc : LinkController} (h : lc.Bounded) : (refill n lc).Bounded := by
  unfold refill
  exact grants_bounded n h

/-- Entries that leave the queue, and offers that are withdrawn, leave the bounds. -/
theorem LinkController.Bounded.sublist {lc : LinkController} (h : lc.Bounded) {q w : List SendEntry}
    (hq : q.Sublist lc.queue) (hw : ∀ e ∈ w, e ∈ lc.waiting) :
    LinkController.Bounded { lc with queue := q, waiting := w } := by
  obtain ⟨hlength, hhost, hwaiting⟩ := h
  exact ⟨hq.length_le.trans hlength, (hq.filter _).length_le.trans hhost, fun e he => hwaiting e (hw e he)⟩

theorem map_hosts (f : SendEntry → SendEntry) (hf : ∀ e, (f e).host = e.host) (q : List SendEntry) :
    ((q.map f).filter fun e => e.host).length = (q.filter fun e => e.host).length := by
  simp [List.filter_map, Function.comp_def, hf]

/-- Entries changed in other fields than their share mark leave the bounds. -/
theorem LinkController.Bounded.map {lc : LinkController} (h : lc.Bounded) (f : SendEntry → SendEntry)
    (hf : ∀ e, (f e).host = e.host) : LinkController.Bounded { lc with queue := lc.queue.map f } := by
  obtain ⟨hlength, hhost, hwaiting⟩ := h
  exact ⟨by simpa using hlength, (map_hosts f hf lc.queue).le.trans hhost, hwaiting⟩

theorem release_bounded (p : SendEntry → Bool) {lc : LinkController} (h : lc.Bounded) : (lc.release p).Bounded :=
  refill_bounded _ (h.sublist List.filter_sublist fun _ he => he)

theorem offerLc_bounded (e : SendEntry) {lc : LinkController} (h : lc.Bounded) (he : e.host = false) :
    (offerLc e lc).Bounded := by
  unfold offerLc
  split
  · exact h
  · split
    · next room => exact h.insert e room fun k => absurd k (by simp [he])
    · refine ⟨h.1, h.2.1, fun x hx => ?_⟩
      rcases List.mem_append.mp hx with hx | hx
      · exact h.2.2 x hx
      · exact List.mem_singleton.mp hx ▸ he

/-- A host-share entry joins at once where there is room for it (R8). -/
theorem offerLc_bounded_host (e : SendEntry) {lc : LinkController} (h : lc.Bounded) (room : lc.hostRoom = true) :
    (offerLc e lc).Bounded := by
  obtain ⟨share, free⟩ := (hostRoom_iff lc).mp room
  unfold offerLc
  split
  · exact h
  · exact h.insert e free fun _ => share

theorem withdrawLc_bounded (p : FrameBody → Bool) {lc : LinkController} (h : lc.Bounded) :
    (withdrawLc p lc).Bounded := by
  unfold withdrawLc
  refine release_bounded _ ?_
  have hmap := h.map (fun e => if p e.body && e.inTx then { e with removal := true } else e)
    fun e => by split <;> rfl
  exact hmap.sublist (List.Sublist.refl _) fun e he => (List.mem_filter.mp he).1

/-- The Link Controller replaced by a bounded one with the same junk count. -/
theorem Keeps.of_lc {b : Blocks} {lc : LinkController} (h : b.lc.Bounded → lc.Bounded)
    (hjunk : lc.junk = b.lc.junk) : Keeps b { b with lc := lc } :=
  ⟨fun ⟨hlc, hj, hrest⟩ => ⟨h hlc, hjunk ▸ hj, hrest⟩, id, id⟩

theorem withdrawAll_keeps (p : FrameBody → Bool) (b : Blocks) : Keeps b (withdrawAll p b) :=
  .of_lc (withdrawLc_bounded p) (withdrawLc_rest p b.lc).2.2

/-- Entries that leave are granted at most one for one, so a withdrawal makes no room less. -/
theorem grantOne_room (lc : LinkController) (h : ∀ e ∈ lc.waiting, e.host = false) :
    (grantOne lc).queue.length ≤ lc.queue.length + 1 ∧ (grantOne lc).hostShare = lc.hostShare ∧
      ∀ e ∈ (grantOne lc).waiting, e.host = false := by
  unfold grantOne
  split
  · split
    · next e he =>
      have internal : e.host = false := h e (nextOffer_mem _ _ he)
      refine ⟨by simp [insertEntry_length], ?_, fun x hx => h x (List.mem_of_mem_erase hx)⟩
      simp [LinkController.hostShare, insertEntry_hosts, internal]
    · exact ⟨Nat.le_succ _, rfl, h⟩
  · exact ⟨Nat.le_succ _, rfl, h⟩

theorem grants_room (n : Nat) : ∀ lc : LinkController, (∀ e ∈ lc.waiting, e.host = false) →
    (grants n lc).queue.length ≤ lc.queue.length + n ∧ (grants n lc).hostShare = lc.hostShare := by
  induction n with
  | zero => exact fun lc _ => ⟨Nat.le_refl _, rfl⟩
  | succ n ih =>
    intro lc h
    obtain ⟨hlength, hshare, hwaiting⟩ := grantOne_room lc h
    obtain ⟨klength, kshare⟩ := ih _ hwaiting
    exact ⟨by simp only [grants]; omega, kshare.trans hshare⟩

theorem release_room (p : SendEntry → Bool) (lc : LinkController) (h : ∀ e ∈ lc.waiting, e.host = false)
    (room : lc.hostRoom = true) : (lc.release p).hostRoom = true := by
  obtain ⟨share, free⟩ := (hostRoom_iff lc).mp room
  have hgrants := grants_room (lc.queue.countP p) { lc with queue := lc.queue.filter fun e => !p e } h
  have hcount : (lc.queue.filter fun e => !p e).length + lc.queue.countP p = lc.queue.length := by
    rw [List.countP_eq_length_filter, Nat.add_comm]
    exact (List.length_eq_length_filter_add p).symm
  have hsub : ((lc.queue.filter fun e => !p e).filter fun e => e.host).length ≤ (lc.queue.filter fun e => e.host).length :=
    (List.filter_sublist.filter _).length_le
  refine (hostRoom_iff _).mpr ?_
  simp only [LinkController.release, refill, LinkController.hostShare] at share hgrants ⊢
  omega

theorem withdrawLc_room (p : FrameBody → Bool) {lc : LinkController} (h : lc.Bounded) (room : lc.hostRoom = true) :
    (withdrawLc p lc).hostRoom = true := by
  unfold withdrawLc
  refine release_room _ _ (fun e he => h.2.2 e (List.mem_filter.mp he).1) ?_
  have hshare := map_hosts (fun e => if p e.body && e.inTx then { e with removal := true } else e)
    (fun e => by split <;> rfl) lc.queue
  obtain ⟨share, free⟩ := (hostRoom_iff lc).mp room
  exact (hostRoom_iff _).mpr ⟨hshare.trans_lt share, (List.length_map _).trans_lt free⟩

end Sys2Proof.Machine
end

section
/-! The operations that work on the Send Queue, the offers, the notices and their owners' own records (chapters 5 to 10):
each keeps what is sound, and leaves the lane alone, which is what the invariant of the Dispatch Queue speaks of (R87,
R88, R61). One lemma per operation, `<operation>_quiet`. -/

namespace Sys2Proof.Machine

/-! ### The lane -/

/-- What the invariant of the Dispatch Queue reads of the blocks: the queue's steps, the station state, the frame in
transmission, the catch-up but for the copy and the serve session, and the listen timer. -/
structure Lane where
  steps : List (Nat × Nat)
  station : StationState
  tx : Option TxFrame
  cu : CatchUpUnit
  listenTimer : Option Nat

def Blocks.lane (b : Blocks) : Lane :=
  ⟨b.steps, b.station, b.lc.tx, { b.cu with session := none, copy := .empty }, b.pu.listenTimer⟩

/-- What is sound stays sound, and the lane stays as it is. -/
structure Quiet (b c : Blocks) : Prop where
  sound : Keeps b c
  lane : c.lane = b.lane

theorem Quiet.refl (b : Blocks) : Quiet b b := ⟨.refl b, rfl⟩

theorem Quiet.trans {a b c : Blocks} (h : Quiet a b) (k : Quiet b c) : Quiet a c :=
  ⟨h.sound.trans k.sound, k.lane.trans h.lane⟩

theorem Quiet.ite {p : Prop} [Decidable p] {a b c : Blocks} (h : Quiet a b) (k : Quiet a c) :
    Quiet a (if p then b else c) := by
  split
  · exact h
  · exact k

/-- Operations done one after another for the members of a list. -/
theorem Quiet.fold {α : Type} {go : List α → Blocks → Blocks} {f : α → Blocks → Blocks}
    (nil : ∀ b, go [] b = b) (cons : ∀ x xs b, go (x :: xs) b = go xs (f x b)) (h : ∀ x b, Quiet b (f x b)) :
    ∀ (xs : List α) (b : Blocks), Quiet b (go xs b)
  | [], b => by rw [nil]; exact .refl b
  | x :: xs, b => by rw [cons]; exact (h x b).trans (Quiet.fold nil cons h xs _)

theorem Quiet.steps {b c : Blocks} (h : Quiet b c) : c.steps = b.steps := congrArg Lane.steps h.lane
theorem Quiet.station {b c : Blocks} (h : Quiet b c) : c.station = b.station := congrArg Lane.station h.lane
theorem Quiet.tx {b c : Blocks} (h : Quiet b c) : c.lc.tx = b.lc.tx := congrArg Lane.tx h.lane
theorem Quiet.phase {b c : Blocks} (h : Quiet b c) : c.cu.phase = b.cu.phase :=
  congrArg (fun l : Lane => l.cu.phase) h.lane
theorem Quiet.buffer {b c : Blocks} (h : Quiet b c) : c.cu.buffer = b.cu.buffer :=
  congrArg (fun l : Lane => l.cu.buffer) h.lane

/-! ### The shared operations -/

theorem raise_quiet (n : Notice) (b : Blocks) : Quiet b (raise n b) := ⟨raise_keeps n b, rfl⟩

theorem raiseIf_quiet (c : Bool) (n : Notice) (b : Blocks) : Quiet b (raiseIf c n b) := .ite (raise_quiet n b) (.refl b)

theorem markDue_quiet (b : Blocks) : Quiet b (markDue b) := ⟨⟨id, id, id⟩, rfl⟩

theorem setOp_quiet (o : Option Operation) (b : Blocks) : Quiet b (setOp o b) := ⟨⟨id, id, id⟩, rfl⟩

theorem sendDirective_quiet (d : Directive) (b : Blocks) : Quiet b (sendDirective d b) := ⟨⟨id, id, id⟩, rfl⟩

theorem setSlot_quiet (s : Slot) (r : SlotRec) (b : Blocks) : Quiet b (setSlot s r b) := by
  cases s <;> exact ⟨⟨id, id, id⟩, rfl⟩

theorem setRequest_quiet (r : Option KitRequest) (b : Blocks) : Quiet b (setRequest r b) := ⟨⟨id, id, id⟩, rfl⟩

theorem setFitted_quiet (k : Option Nat) (b : Blocks) : Quiet b (setFitted k b) := ⟨⟨id, id, id⟩, rfl⟩

theorem setBand_quiet (x : Band) (stable : Bool) (b : Blocks) : Quiet b (setBand x stable b) := ⟨⟨id, id, id⟩, rfl⟩

/-- The Link Controller replaced by a bounded one with the same frame in transmission and the same junk count. -/
theorem Quiet.of_lc {b : Blocks} {lc : LinkController} (h : b.lc.Bounded → lc.Bounded)
    (rest : lc.medium = b.lc.medium ∧ lc.tx = b.lc.tx ∧ lc.junk = b.lc.junk) : Quiet b { b with lc := lc } := by
  obtain ⟨_, htx, hjunk⟩ := rest
  refine ⟨.of_lc h hjunk, ?_⟩
  simp only [Blocks.lane, htx, Blocks.steps]

theorem offer_quiet (body : FrameBody) (t : Nat) (o : Owner) (b : Blocks) : Quiet b (offer body t o false b) :=
  .ite (.of_lc (fun h => offerLc_bounded _ h rfl) (offerLc_rest _ b.lc)) (.refl b)

/-- A frame with host share offered where there is room for it (R8). -/
theorem Quiet.offer_host {b c : Blocks} (h : Quiet b c) (room : b.Stores → c.lc.hostRoom = true) (body : FrameBody)
    (t : Nat) (o : Owner) (host : Bool) : Quiet b (offer body t o host c) := by
  unfold offer
  split
  · have hrest := offerLc_rest ⟨body, t, o, host, 0, false, false⟩ c.lc
    refine ⟨⟨fun k => ?_, h.sound.copy, h.sound.go⟩, ?_⟩
    · obtain ⟨hlc, hjunk, hstores⟩ := h.sound.stores k
      exact ⟨offerLc_bounded_host _ hlc (room k), hrest.2.2.trans_le hjunk, hstores⟩
    · rw [← h.lane]
      simp only [Blocks.lane, hrest.2.1, Blocks.steps]
  · exact h

theorem withdrawAll_quiet (p : FrameBody → Bool) (b : Blocks) : Quiet b (withdrawAll p b) :=
  .of_lc (withdrawLc_bounded p) (withdrawLc_rest p b.lc)

theorem withdrawFrame_quiet (x : FrameBody) (b : Blocks) : Quiet b (withdrawFrame x b) := withdrawAll_quiet _ b

/-- Entries of the Dispatch Queue changed in other fields than lot and step keep the queue's steps. -/
theorem mapQueue_quiet (f : QueueEntry → QueueEntry) (hf : ∀ e, (f e).key = e.key) (b : Blocks) :
    Quiet b { b with du := { b.du with queue := b.du.queue.map f } } := by
  refine ⟨⟨id, id, id⟩, ?_⟩
  have hsteps : (b.du.queue.map f).map QueueEntry.key = b.du.queue.map QueueEntry.key := by
    rw [List.map_map]
    exact List.map_congr_left fun e _ => hf e
  simp only [Blocks.lane, Blocks.steps, hsteps]

theorem updateEntry_quiet (l k : Nat) (f : QueueEntry → QueueEntry) (hf : ∀ e, (f e).key = e.key) (b : Blocks) :
    Quiet b (updateEntry l k f b) :=
  mapQueue_quiet _ (fun e => by split; exacts [hf e, rfl]) b

/-! ### Holds (R149, R154) -/

theorem keepPending_quiet (p : PendingHold) (b : Blocks) : Quiet b (keepPending p b) :=
  .ite ⟨⟨id, id, id⟩, rfl⟩ ⟨⟨id, id, id⟩, rfl⟩

theorem setSerial_quiet (sn : BitVec 8) (b : Blocks) : Quiet b { b with cli := { b.cli with serial := sn } } :=
  ⟨⟨id, id, id⟩, rfl⟩

theorem enqueueHold_quiet (v : View) (o : Owner) (t : HoldTarget) (l : Level) (r : Reason) (b : Blocks) :
    Quiet b (enqueueHold v o false t l r b) :=
  (setSerial_quiet _ b).trans (offer_quiet ..)

theorem autoHold_quiet (v : View) (t : HoldTarget) (l : Level) (r : Reason) (b : Blocks) :
    Quiet b (autoHold v t l r b) :=
  .ite (keepPending_quiet _ b) (.ite (.refl b) (.ite (raise_quiet _ b) (enqueueHold_quiet ..)))

theorem retryHolds_quiet (v : View) : ∀ (ps : List PendingHold) (b : Blocks), Quiet b (retryHolds v ps b) :=
  Quiet.fold (fun _ => rfl) (fun _ _ _ => rfl) fun p b => autoHold_quiet v p.target p.level p.reason b

theorem clearPending_quiet (b : Blocks) :
    Quiet b { b with iw := { b.iw with pendingHolds := [] }, du := { b.du with pendingHolds := [] } } :=
  ⟨⟨id, id, id⟩, rfl⟩

theorem retryPendingHolds_quiet (v : View) (b : Blocks) : Quiet b (retryPendingHolds v b) :=
  (clearPending_quiet b).trans (retryHolds_quiet v _ _)

/-! ### Cedes (R94, R95) -/

theorem enqueueCede_quiet (l k : Nat) (b : Blocks) : Quiet b (enqueueCede l k false b) :=
  .ite (.refl b) (offer_quiet ..)

theorem dueIfReady_quiet (e : QueueEntry) (b : Blocks) : Quiet b (dueIfReady e b) := .ite (markDue_quiet b) (.refl b)

/-- The parts of a cede cause set that go before the CEDE is enqueued. -/
theorem causeSet_quiet (c : CedeCause) (e : QueueEntry) (l k : Nat) (b : Blocks) :
    Quiet b (dueIfReady e (if e.phase == .ready then
      withdrawAll (isStartOf l k) (updateEntry l k (fun e => { e with cede := some (mergeCause e.cede c) }) b)
      else updateEntry l k (fun e => { e with cede := some (mergeCause e.cede c) }) b)) :=
  ((updateEntry_quiet l k (fun e => { e with cede := some (mergeCause e.cede c) }) (fun _ => rfl) b).trans
    (.ite (withdrawAll_quiet _ _) (.refl _))).trans (dueIfReady_quiet e _)

/-- Where there is room for a CEDE with host share, there still is once the cause has been set. -/
theorem causeSet_room (c : CedeCause) (e : QueueEntry) (l k : Nat) (b : Blocks) (h : b.Stores)
    (room : b.lc.hostRoom = true) :
    (dueIfReady e (if e.phase == .ready then
      withdrawAll (isStartOf l k) (updateEntry l k (fun e => { e with cede := some (mergeCause e.cede c) }) b)
      else updateEntry l k (fun e => { e with cede := some (mergeCause e.cede c) }) b)).lc.hostRoom = true := by
  unfold dueIfReady
  by_cases hready : e.phase = .ready
  · simpa [hready] using withdrawLc_room _ h.1 room
  · simpa [hready] using room

/-- A cede cause set; where the cause is HOST there has to be room for its CEDE (R94, R96). -/
theorem setCede_quiet_room (c : CedeCause) (l k : Nat) (b : Blocks) (room : c = .host → b.lc.hostRoom = true) :
    Quiet b (setCede c l k b) := by
  unfold setCede
  split
  · next e _ =>
    refine .ite ?_ (.refl b)
    have hset := causeSet_quiet c e l k b
    refine .ite ?_ hset
    by_cases hhost : c = .host
    · exact .ite hset (hset.offer_host (fun h => causeSet_room c e l k b h (room hhost)) _ _ _ _)
    · have internal : (c == .host) = false := by simpa using hhost
      exact hset.trans (internal ▸ enqueueCede_quiet l k _)
  · exact .refl b

theorem setCede_quiet (c : CedeCause) (hc : c ≠ .host) (l k : Nat) (b : Blocks) : Quiet b (setCede c l k b) :=
  setCede_quiet_room c l k b fun h => absurd h hc

theorem setCedes_quiet (c : CedeCause) (hc : c ≠ .host) :
    ∀ (es : List QueueEntry) (b : Blocks), Quiet b (setCedes c es b) :=
  Quiet.fold (fun _ => rfl) (fun _ _ _ => rfl) fun e b => setCede_quiet c hc e.lot e.step b

theorem clearCede_quiet (c : CedeCause) (l k : Nat) (b : Blocks) : Quiet b (clearCede c l k b) :=
  (updateEntry_quiet l k _ (fun e => by split <;> rfl) b).trans (withdrawFrame_quiet _ _)

theorem oweCedes_quiet : ∀ (es : List QueueEntry) (b : Blocks), Quiet b (oweCedes es b)
  | [], b => .refl b
  | e :: es, b => by
    refine Quiet.trans ?_ (oweCedes_quiet es _)
    split
    · exact .ite (enqueueCede_quiet _ _ b) (.refl b)
    · exact .refl b

theorem holdCede_quiet (v : View) (e : QueueEntry) (b : Blocks) : Quiet b (holdCede v e b) :=
  .ite (.ite (setCede_quiet _ (by decide) _ _ b) (.refl b)) (.ite (clearCede_quiet _ _ _ b) (.refl b))

theorem holdCedes_quiet (v : View) : ∀ (es : List QueueEntry) (b : Blocks), Quiet b (holdCedes v es b) :=
  Quiet.fold (fun _ => rfl) (fun _ _ _ => rfl) fun e b => holdCede_quiet v e b

/-! ### The Handler Record (R103 to R107, R110) -/

theorem endRequest_quiet (b : Blocks) : Quiet b (endRequest b) := by
  unfold endRequest
  split
  · exact (setRequest_quiet none b).trans (withdrawAll_quiet _ _)
  · exact .refl b

theorem needRemoval_quiet (r : KitRequest) (k : Nat) (b : Blocks) : Quiet b (needRemoval r k b) :=
  (setRequest_quiet _ b).trans (raise_quiet _ _)

theorem needFitting_quiet (r : KitRequest) (k : Nat) (b : Blocks) : Quiet b (needFitting r k b) :=
  (setRequest_quiet _ b).trans (raise_quiet _ _)

theorem startTaking_quiet (r : KitRequest) (k : Nat) (b : Blocks) : Quiet b (startTaking r k b) :=
  (setRequest_quiet _ b).trans (offer_quiet ..)

theorem chooseKit_quiet (v : View) (r : KitRequest) (b : Blocks) : Quiet b (chooseKit v r b) := by
  unfold chooseKit
  refine .ite (endRequest_quiet b) ?_
  split
  · exact needRemoval_quiet r _ b
  · split
    · exact needFitting_quiet r _ b
    · split
      · exact startTaking_quiet r _ b
      · exact (endRequest_quiet b).trans (setCede_quiet _ (by decide) _ _ _)

theorem askKit_quiet (v : View) (l k f : Nat) (b : Blocks) : Quiet b (askKit v l k f b) := by
  unfold askKit
  split
  · exact .ite (.refl b) ((endRequest_quiet b).trans (chooseKit_quiet v _ _))
  · exact chooseKit_quiet v _ b

theorem tryNext_quiet (v : View) (r : KitRequest) (k : Nat) (b : Blocks) : Quiet b (tryNext v r k b) :=
  chooseKit_quiet v _ b

theorem upkeepRequest_quiet (b : Blocks) : Quiet b (upkeepRequest b) := by
  unfold upkeepRequest
  split
  · split
    · exact .ite (.refl b) (endRequest_quiet b)
    · exact endRequest_quiet b
  · exact .refl b

theorem enqueueGive_quiet (k : Nat) (b : Blocks) : Quiet b (enqueueGive k b) := .ite (.refl b) (offer_quiet ..)

theorem setGives_quiet (ks : List Nat) (b : Blocks) : Quiet b { b with hr := { b.hr with gives := ks } } :=
  ⟨⟨id, id, id⟩, rfl⟩

theorem giveBack_quiet (k : Nat) (b : Blocks) : Quiet b (giveBack k b) :=
  .ite (.refl b) ((setGives_quiet _ b).trans (enqueueGive_quiet k _))

theorem dropGive_quiet (k : Nat) (b : Blocks) : Quiet b (dropGive k b) := setGives_quiet _ b

theorem enqueueGives_quiet : ∀ (ks : List Nat) (b : Blocks), Quiet b (enqueueGives ks b) :=
  Quiet.fold (fun _ => rfl) (fun _ _ _ => rfl) enqueueGive_quiet

theorem reofferTake_quiet (b : Blocks) : Quiet b (reofferTake b) := by
  unfold reofferTake
  split
  · split
    · exact .ite (.refl b) (offer_quiet ..)
    · exact .refl b
  · exact .refl b

/-- The request in FITTING whose candidate is not here any longer chooses again (R110). -/
theorem agreeRequest_quiet (v : View) (b : Blocks) :
    Quiet b (match b.hr.request with
      | some r =>
        match r.phase, r.candidate with
        | .fitting, some k => if kitAtHere v k then b else chooseKit v r b
        | _, _ => b
      | none => b) := by
  split
  · split
    · exact .ite (.refl b) (chooseKit_quiet v _ b)
    · exact .refl b
  · exact .refl b

theorem agreeWithReplica_quiet (v : View) (b : Blocks) : Quiet b (agreeWithReplica v b) := by
  unfold agreeWithReplica
  refine Quiet.trans ?_ (agreeRequest_quiet v _)
  refine Quiet.trans ?_ (setGives_quiet _ _)
  split
  · exact .ite (.refl b) ((setFitted_quiet none b).trans (raise_quiet _ _))
  · exact .refl b

/-! ### The Dispatch Unit's evaluation (R83, R90, R91) -/

theorem computeNeeds_quiet (v : View) (e : QueueEntry) (b : Blocks) : Quiet b (computeNeeds v e b) := by
  unfold computeNeeds
  refine Quiet.trans (updateEntry_quiet e.lot e.step (fun x => { x with
      kitNeeded := kitNeededOf v b e, bandNeeded := bandNeededOf v b e
      asked := x.asked && !(bandAgain b (bandNeededOf v b e) e && b.station == .joining) }) (fun _ => rfl) b) ?_
  simp only
  split
  · exact raiseIf_quiet _ _ _
  · exact .refl _

theorem computeAllNeeds_quiet (v : View) : ∀ (es : List QueueEntry) (b : Blocks), Quiet b (computeAllNeeds v es b) :=
  Quiet.fold (fun _ => rfl) (fun _ _ _ => rfl) fun e b => computeNeeds_quiet v e b

theorem askBand_quiet (v : View) (e : QueueEntry) (b : Blocks) :
    Quiet b (match bandNeededOf v b e with
      | some x => raise (.bandNeeded e.lot e.step x) b
      | none => b) := by
  split
  · exact raise_quiet _ b
  · exact .refl b

theorem askKitNeeded_quiet (v : View) (e : QueueEntry) (b : Blocks) :
    Quiet b (match kitNeededOf v b e with
      | some family => askKit v e.lot e.step family b
      | none => b) := by
  split
  · exact askKit_quiet v _ _ _ b
  · exact .refl b

theorem makeRequests_quiet (v : View) (e : QueueEntry) (b : Blocks) : Quiet b (makeRequests v e b) :=
  ((updateEntry_quiet e.lot e.step (fun x => { x with asked := true }) (fun _ => rfl) b).trans
    (askBand_quiet v e _)).trans (askKitNeeded_quiet v e _)

theorem fallBack_quiet (e : QueueEntry) (b : Blocks) : Quiet b (fallBack e b) :=
  (updateEntry_quiet e.lot e.step (fun e => { e with phase := .preparing, asked := false }) (fun _ => rfl) b).trans
    (withdrawAll_quiet _ _)

theorem makeReady_quiet (e : QueueEntry) (b : Blocks) : Quiet b (makeReady e b) := by
  unfold makeReady
  split
  · exact (updateEntry_quiet e.lot e.step (fun e => { e with phase := .ready }) (fun _ => rfl) b).trans
      (offer_quiet ..)
  · exact .refl b

theorem withHead_quiet (f : QueueEntry → Blocks → Blocks) (hf : ∀ e b, Quiet b (f e b)) (b : Blocks) :
    Quiet b (withHead f b) := by
  unfold withHead
  split
  · exact hf _ b
  · exact .refl b

theorem headFalls_quiet (v : View) (e : QueueEntry) (b : Blocks) : Quiet b (headFalls v e b) :=
  .ite (fallBack_quiet e b) (.refl b)

theorem headEnters_quiet (e : QueueEntry) (b : Blocks) : Quiet b (headEnters e b) :=
  .ite (updateEntry_quiet e.lot e.step (fun e => { e with phase := .preparing, asked := false }) (fun _ => rfl) b)
    (.refl b)

theorem headAsks_quiet (v : View) (e : QueueEntry) (b : Blocks) : Quiet b (headAsks v e b) :=
  .ite (makeRequests_quiet v e b) (.refl b)

theorem headReady_quiet (v : View) (e : QueueEntry) (b : Blocks) : Quiet b (headReady v e b) :=
  .ite (makeReady_quiet e b) (.refl b)

theorem enterHead_quiet (b : Blocks) : Quiet b (enterHead b) := withHead_quiet _ headEnters_quiet b

theorem headResumes_quiet (v : View) (b : Blocks) : Quiet b (headResumes v b) :=
  (enterHead_quiet b).trans (withHead_quiet _ (holdCede_quiet v) _)

theorem setTimers_quiet (ts : List DeferenceTimer) (b : Blocks) :
    Quiet b { b with du := { b.du with timers := ts } } := ⟨⟨id, id, id⟩, rfl⟩

theorem stopDeference_quiet (l k : Nat) (b : Blocks) : Quiet b (stopDeference l k b) := setTimers_quiet _ b

theorem startDeference_quiet (v : View) (l : LotRec) (k : Nat) (s : StepRec) (b : Blocks) :
    Quiet b (startDeference v l k s b) := .ite (offer_quiet ..) (setTimers_quiet _ b)

theorem deferStep_quiet (v : View) (l : LotRec) (k : Nat) (s : StepRec) (b : Blocks) : Quiet b (deferStep v l k s b) :=
  .ite (.ite (.refl b) (stopDeference_quiet _ _ b))
    (.ite (.refl b) (.ite (startDeference_quiet v l k s b) (.refl b)))

theorem deferSteps_quiet (v : View) (l : LotRec) : ∀ (k : Nat) (ss : List StepRec) (b : Blocks),
    Quiet b (deferSteps v l k ss b)
  | _, [], b => .refl b
  | k, s :: ss, b =>
    (Quiet.ite (p := s.state.isWaiting) (deferStep_quiet v l k s b) (stopDeference_quiet _ _ b)).trans
      (deferSteps_quiet v l (k + 1) ss _)

theorem deferLots_quiet (v : View) : ∀ (ls : List LotRec) (b : Blocks), Quiet b (deferLots v ls b) :=
  Quiet.fold (fun _ => rfl) (fun _ _ _ => rfl) fun l b => deferSteps_quiet v l 1 l.plan b

theorem evaluateDeference_quiet (v : View) (b : Blocks) : Quiet b (evaluateDeference v b) :=
  (setTimers_quiet _ b).trans (deferLots_quiet v _ _)

theorem evaluateDispatch_quiet (v : View) (b : Blocks) : Quiet b (evaluateDispatch v b) :=
  ((((((((computeAllNeeds_quiet v _ b).trans (enterHead_quiet _)).trans (holdCedes_quiet v _ _)).trans
    (headResumes_quiet v _)).trans (oweCedes_quiet _ _)).trans (withHead_quiet _ (headFalls_quiet v) _)).trans
    (withHead_quiet _ (headAsks_quiet v) _)).trans (withHead_quiet _ (headReady_quiet v) _)).trans
    (evaluateDeference_quiet v _)

theorem setDue_quiet (due : Bool) (b : Blocks) : Quiet b { b with du := { b.du with evalDue := due } } :=
  ⟨⟨id, id, id⟩, rfl⟩

theorem evaluateIfDue_quiet (v : View) (b : Blocks) : Quiet b (evaluateIfDue v b) :=
  .ite ((setDue_quiet false b).trans (evaluateDispatch_quiet v _)) (.refl b)

/-! ### The Load Engine's work (R116 to R126) -/

theorem issueLoad_quiet (v : View) (s : Slot) (sp : StepSpec) (b : Blocks) : Quiet b (issueLoad v s sp b) :=
  ((setSlot_quiet _ _ b).trans (setOp_quiet _ _)).trans (sendDirective_quiet _ _)

theorem issueVerify_quiet (s : Slot) (b : Blocks) : Quiet b (issueVerify s b) := by
  unfold issueVerify
  split
  · exact ((setSlot_quiet _ _ b).trans (setOp_quiet _ _)).trans (sendDirective_quiet _ _)
  · exact .refl b

theorem issueSwap_quiet (b : Blocks) : Quiet b (issueSwap b) := (setOp_quiet _ b).trans (sendDirective_quiet _ _)

theorem abortOp_quiet (s : Slot) (b : Blocks) : Quiet b (abortOp s b) :=
  ((setSlot_quiet _ _ b).trans (setOp_quiet _ _)).trans (sendDirective_quiet _ _)

theorem abortUnwanted_quiet (v : View) (b : Blocks) : Quiet b (abortUnwanted v b) := by
  unfold abortUnwanted
  split
  · split
    · split
      · exact .ite (abortOp_quiet _ b) (.refl b)
      · exact .refl b
    · split
      · exact .ite (abortOp_quiet _ b) (.refl b)
      · exact .refl b
    · exact .refl b
  · exact .refl b

/-- The operations that R117 and R118 choose among. -/
inductive LoadWork (v : View) : (Blocks → Blocks) → Prop
  | load (s : Slot) (sp : StepSpec) : LoadWork v (issueLoad v s sp)
  | verify (s : Slot) : LoadWork v (issueVerify s)
  | swap : LoadWork v issueSwap

theorem LoadWork.quiet {v : View} {f : Blocks → Blocks} (h : LoadWork v f) (b : Blocks) : Quiet b (f b) := by
  cases h with
  | load s sp => exact issueLoad_quiet v s sp b
  | verify s => exact issueVerify_quiet s b
  | swap => exact issueSwap_quiet b

theorem headWork_loadWork {v : View} {b : Blocks} {f : Blocks → Blocks} (h : headWork v b = some f) :
    LoadWork v f := by
  unfold headWork at h
  simp only at h
  repeat' first
    | cases h
    | exact .verify _
    | exact .swap
    | exact .load _ _
    | split at h

theorem behindWork_loadWork {v : View} {b : Blocks} {f : Blocks → Blocks} (h : behindWork v b = some f) :
    LoadWork v f := by
  unfold behindWork at h
  repeat' first
    | cases h
    | exact .verify _
    | (simp only [Option.map_eq_some_iff] at h; obtain ⟨s, _, rfl⟩ := h; exact .load _ _)
    | split at h

theorem chooseWork_quiet (v : View) (b : Blocks) : Quiet b (chooseWork v b) := by
  unfold chooseWork
  split
  · exact .refl b
  · split
    · next h => exact (headWork_loadWork h).quiet b
    · split
      · next h => exact (behindWork_loadWork h).quiet b
      · exact .refl b

theorem evaluateLoad_quiet (v : View) (b : Blocks) : Quiet b (evaluateLoad v b) :=
  (abortUnwanted_quiet v b).trans (chooseWork_quiet v _)

/-! ### The gate (R132, R133, R136, R147) -/

/-- A new Insertion Watch under which GO stands as it must. -/
theorem Quiet.of_iw {b : Blocks} {w : InsertionWatch} (h : b.iw.GoOverTest → w.GoOverTest) :
    Quiet b { b with iw := w } :=
  ⟨⟨id, id, h⟩, rfl⟩

/-- With no insertion in test, GO is released. -/
theorem InsertionWatch.GoOverTest.go_false {w : InsertionWatch} (h : w.GoOverTest)
    (untested : ∀ m n, w.insertion ≠ .inTest m n) : w.go = false := by
  by_contra hgo
  obtain ⟨_, n, hn⟩ := h.1 (by simpa using hgo)
  exact untested _ _ hn

/-- With GO and the enable lines released, the other fields are free. -/
theorem goOverTest_of_released {w : InsertionWatch} (hgo : w.go = false) (hen : w.en = 0) : w.GoOverTest :=
  ⟨fun h => absurd h (by simp [hgo]), fun _ => hen⟩

theorem issueGo_quiet (v : View) (m : SiteMask) (b : Blocks) (hgate : b.iw.gate = true)
    (untested : ∀ x n, b.iw.insertion ≠ .inTest x n) : Quiet b (issueGo v m b) := by
  unfold issueGo
  refine .ite ?_ ?_
  · refine Quiet.trans (.of_iw fun h => ?_) (raise_quiet _ _)
    have hgo := h.go_false untested
    exact goOverTest_of_released hgo (h.2 hgo)
  · exact .of_iw fun _ => ⟨fun _ => ⟨hgate, _, rfl⟩, fun h => by simp at h⟩

theorem openGate_quiet (v : View) (b : Blocks) : Quiet b (openGate v b) := by
  have hopen : Quiet b { b with iw := { b.iw with gate := true, halt := false } } :=
    .of_iw fun h => ⟨fun hgo => ⟨rfl, (h.1 hgo).2⟩, h.2⟩
  unfold openGate
  simp only
  split
  · next m hm => exact hopen.trans (issueGo_quiet v m _ rfl fun x n k => by simp [hm] at k)
  · exact hopen

theorem closeGate_quiet (b : Blocks) : Quiet b (closeGate b) := by
  refine .of_iw fun _ => ?_
  unfold closeGateIw
  split <;> exact goOverTest_of_released rfl rfl

theorem evaluateGate_quiet (v : View) (b : Blocks) : Quiet b (evaluateGate v b) :=
  .ite (.ite (.refl b) (openGate_quiet v b)) (.ite (closeGate_quiet b) (.refl b))

theorem haltStep_quiet (b : Blocks) : Quiet b (haltStep b) := .of_iw fun _ => goOverTest_of_released rfl rfl

/-! ### The evaluations together (R39, R83) -/

theorem settleRound_quiet (v : View) (b : Blocks) : Quiet b (settleRound v b) :=
  (((evaluateIfDue_quiet v b).trans (upkeepRequest_quiet _)).trans (evaluateLoad_quiet v _)).trans
    (evaluateGate_quiet v _)

theorem settleRounds_quiet (v : View) (n : Nat) : ∀ b, Quiet b (settleRounds v n b) := by
  induction n with
  | zero => exact .refl
  | succ n ih => exact fun b => (settleRound_quiet v b).trans (.ite (ih _) (.refl _))

theorem settle_quiet (v : View) (b : Blocks) : Quiet b (settle v b) := by
  unfold settle
  exact settleRounds_quiet v _ b

theorem keepParkTimer_quiet (v : View) (b : Blocks) : Quiet b (keepParkTimer v b) := ⟨⟨id, id, id⟩, rfl⟩

end Sys2Proof.Machine
end

section
/-! The operations of release, leaving, tally, signals, serving, revalidation, the Tester Line and the verdicts that leave
the lane alone, and what a reconcile does to the steps of the Dispatch Queue (R88). -/

namespace Sys2Proof.Machine

/-! ### The Refusal List and a failed load (R99, R123) -/

theorem addRefusal_length (p : Nat × Nat) (rs : List (Nat × Nat)) (h : rs.length ≤ Config.maxRefusals) :
    (addRefusal p rs).length ≤ Config.maxRefusals := by
  unfold addRefusal
  split
  · exact h
  · split
    · next room => simpa using Nat.succ_le_of_lt room
    · simp only [List.length_append, List.length_drop, List.length_singleton]
      simp only [Config.maxRefusals] at *
      omega

theorem refusePair_quiet (v : View) (p : Nat × Nat) (b : Blocks) : Quiet b (refusePair v p b) := by
  have hadd : Quiet b (markDue { b with du := { b.du with refusals := addRefusal p b.du.refusals } }) :=
    ⟨⟨fun ⟨hlc, hjunk, hbuffer, hrefusals, hcli⟩ =>
      ⟨hlc, hjunk, hbuffer, addRefusal_length p _ hrefusals, hcli⟩, id, id⟩, rfl⟩
  exact hadd.trans (setCedes_quiet _ (by decide) _ _)

theorem failOp_quiet (v : View) (s : Slot) (c : LoadFailedCause) (b : Blocks) : Quiet b (failOp v s c b) := by
  unfold failOp
  split
  · exact (((setOp_quiet none b).trans (setSlot_quiet _ _ _)).trans (raise_quiet _ _)).trans (refusePair_quiet v _ _)
  · exact setOp_quiet none b

/-! ### Release (R163 to R166) -/

theorem setReleases_quiet (rs : List ReleaseRec) (b : Blocks) : Quiet b (setReleases rs b) := ⟨⟨id, id, id⟩, rfl⟩

theorem updateRelease_quiet (lot : Nat) (f : ReleaseRec → ReleaseRec) (b : Blocks) : Quiet b (updateRelease lot f b) :=
  setReleases_quiet _ b

theorem pruneReleases_quiet (v : View) : ∀ (rs : List ReleaseRec) (b : Blocks), Quiet b (pruneReleases v rs b) :=
  Quiet.fold (fun _ => rfl) (fun _ _ _ => rfl) fun _ b =>
    .ite (.refl b) (.ite ((setReleases_quiet _ b).trans (withdrawAll_quiet _ _)) (setReleases_quiet _ b))

theorem ensureRelease_quiet (lot : Nat) (b : Blocks) : Quiet b (ensureRelease lot b) := by
  unfold ensureRelease
  split
  · exact .refl b
  · exact setReleases_quiet _ b

theorem countHold_quiet (v : View) (lot : Nat) (b : Blocks) : Quiet b (countHold v lot b) := by
  unfold countHold
  split
  · exact .ite (.refl b) ((updateRelease_quiet _ _ b).trans (autoHold_quiet ..))
  · exact .refl b

theorem enqueueShip_quiet (l : LotRec) (b : Blocks) : Quiet b (enqueueShip l b) := by
  unfold enqueueShip
  split
  · exact .ite (.refl b) ((updateRelease_quiet _ _ b).trans (offer_quiet ..))
  · exact .refl b

theorem releaseWaiting_quiet (lot : Nat) (b : Blocks) : Quiet b (releaseWaiting lot b) := by
  unfold releaseWaiting
  split
  · exact (updateRelease_quiet _ _ b).trans (raiseIf_quiet _ _ _)
  · exact .refl b

theorem checkOwned_quiet (v : View) (l : LotRec) (b : Blocks) : Quiet b (checkOwned v l b) :=
  (ensureRelease_quiet l.lot b).trans
    (.ite ((updateRelease_quiet _ _ _).trans (countHold_quiet v _ _))
      (.ite (updateRelease_quiet _ _ _)
        (.ite ((updateRelease_quiet _ _ _).trans (enqueueShip_quiet l _)) (releaseWaiting_quiet _ _))))

theorem releaseCheck_quiet (v : View) (lot : Nat) (b : Blocks) : Quiet b (releaseCheck v lot b) := by
  have hprune := pruneReleases_quiet v b.du.releases b
  refine .ite (hprune.trans (c := match v.rep.lot? lot with
    | some l => if l.ownedBy v.id then checkOwned v l (pruneReleases v b.du.releases b)
      else pruneReleases v b.du.releases b
    | none => pruneReleases v b.du.releases b) ?_) (.refl b)
  split
  · exact .ite (checkOwned_quiet v _ _) (.refl _)
  · exact .refl _

theorem checkLots_quiet (v : View) : ∀ (ls : List LotRec) (b : Blocks), Quiet b (checkLots v ls b) :=
  Quiet.fold (fun _ => rfl) (fun _ _ _ => rfl) fun l b => .ite (checkOwned_quiet v l b) (.refl b)

theorem releaseChecks_quiet (v : View) (b : Blocks) : Quiet b (releaseChecks v b) :=
  .ite ((pruneReleases_quiet v _ b).trans (checkLots_quiet v _ _)) (.refl b)

/-! ### Frames that end unsent, and a LEAVE abandoned (R9, R34, R70) -/

/-- The serve session and the Snapshot Copy changed, the new copy being no snapshot under reception. -/
theorem setCopy_quiet (ss : Option ServeSession) (copy : SnapshotCopy) (h : copySound copy = true) (b : Blocks) :
    Quiet b { b with cu := { b.cu with session := ss, copy := copy } } :=
  ⟨⟨id, fun _ => h, id⟩, rfl⟩

theorem endSession_quiet (b : Blocks) : Quiet b (endSession b) := by
  unfold endSession
  split
  · exact (setCopy_quiet none .empty rfl b).trans (withdrawAll_quiet _ _)
  · exact .refl b

theorem holdSendFailed_quiet (v : View) (sn : BitVec 8) (t : HoldTarget) (l : Level) (r : Reason) (b : Blocks) :
    Quiet b (holdSendFailed v sn t l r b) := by
  cases r
  case host => exact raise_quiet _ b
  all_goals exact keepPending_quiet _ b

theorem startGone_quiet (l k : Nat) (b : Blocks) : Quiet b (startGone l k b) :=
  (updateEntry_quiet l k _ (fun e => by split <;> rfl) b).trans (markDue_quiet _)

theorem setOwed_quiet (t : Option FrameBody) (b : Blocks) : Quiet b { b with iw := { b.iw with tallyOwed := t } } :=
  ⟨⟨id, id, id⟩, rfl⟩

theorem sendFailed_quiet (v : View) (body : FrameBody) (b : Blocks) : Quiet b (sendFailed v body b) := by
  unfold sendFailed
  split
  case h_1 => exact holdSendFailed_quiet ..
  case h_3 => exact updateRelease_quiet ..
  case h_4 => exact startGone_quiet ..
  case h_5 => exact setOwed_quiet _ b
  case h_6 => exact markDue_quiet b
  case h_14 | h_15 | h_16 => exact endSession_quiet b
  case h_17 => exact .refl b
  all_goals exact raise_quiet _ b

theorem sendFailedAll_quiet (v : View) : ∀ (es : List SendEntry) (b : Blocks), Quiet b (sendFailedAll v es b) :=
  Quiet.fold (fun _ => rfl) (fun _ _ _ => rfl) fun e b => sendFailed_quiet v e.body b

theorem clearLc_quiet (b : Blocks) : Quiet b { b with lc := { b.lc with queue := [], waiting := [] } } :=
  .of_lc (fun h => h.sublist (List.nil_sublist _) (by simp)) ⟨rfl, rfl, rfl⟩

theorem emptySendQueue_quiet (v : View) (b : Blocks) : Quiet b (emptySendQueue v b) :=
  (clearLc_quiet b).trans (sendFailedAll_quiet v _ _)

theorem clearLeaveCauses_quiet : ∀ (es : List QueueEntry) (b : Blocks), Quiet b (clearLeaveCauses es b) :=
  Quiet.fold (fun _ => rfl) (fun _ _ _ => rfl) fun e b => .ite (clearCede_quiet .leave e.lot e.step b) (.refl b)

theorem setLeaving_quiet (x : Bool) (b : Blocks) : Quiet b { b with du := { b.du with leaving := x } } :=
  ⟨⟨id, id, id⟩, rfl⟩

theorem abandonLeave_quiet (c : LeaveFailedCause) (b : Blocks) : Quiet b (abandonLeave c b) :=
  .ite ((((setLeaving_quiet false b).trans (markDue_quiet _)).trans (clearLeaveCauses_quiet _ _)).trans (raise_quiet _ _))
    (.refl b)

/-! ### Presence (R30, R144) -/

theorem reofferTally_quiet (b : Blocks) : Quiet b (reofferTally b) := by
  unfold reofferTally
  split
  · exact (setOwed_quiet none b).trans (offer_quiet ..)
  · exact .refl b

theorem reofferOwed_quiet (v : View) (b : Blocks) : Quiet b (reofferOwed v b) :=
  (((enqueueGives_quiet _ b).trans (reofferTake_quiet _)).trans (reofferTally_quiet _)).trans
    (retryPendingHolds_quiet v _)

theorem leaveMembership_quiet (b : Blocks) : Quiet b (leaveMembership b) :=
  ((setTimers_quiet [] b).trans (withdrawAll_quiet _ _)).trans (endSession_quiet _)

theorem orphanOne_quiet (v : View) (p : PeerRec) (b : Blocks) : Quiet b (orphanOne v p b) :=
  .ite (offer_quiet ..) (.refl b)

theorem orphanEach_quiet (v : View) : ∀ (ps : List PeerRec) (b : Blocks), Quiet b (orphanEach v ps b) :=
  Quiet.fold (fun _ => rfl) (fun _ _ _ => rfl) (orphanOne_quiet v)

theorem orphanCheck_quiet (v : View) (b : Blocks) : Quiet b (orphanCheck v b) :=
  .ite (orphanEach_quiet v _ b) (.refl b)

theorem askAgain_quiet (v : View) (l k : Nat) (b : Blocks) : Quiet b (askAgain v l k b) := by
  unfold askAgain
  split
  · exact askKit_quiet v _ _ _ b
  · exact .refl b

/-! ### Step end (R144, R147, R161) -/

theorem setCounters_quiet (c : StepCounters) (b : Blocks) : Quiet b (setCounters c b) := ⟨⟨id, id, id⟩, rfl⟩

theorem enqueueTally_quiet (v : View) (lot : Nat) (b : Blocks) : Quiet b (enqueueTally v lot b) :=
  .ite (.refl b) (.ite (offer_quiet ..) (setOwed_quiet _ b))

theorem endStep_quiet (v : View) (lot : Nat) (b : Blocks) : Quiet b (endStep v lot b) :=
  ((updateEntry_quiet lot _ (fun e => { e with phase := .ending }) (fun _ => rfl) b).trans (setCounters_quiet _ _)).trans
    (enqueueTally_quiet v lot _)

theorem stepEndTest_quiet (v : View) (b : Blocks) : Quiet b (stepEndTest v b) := by
  unfold stepEndTest
  split
  · exact .ite (endStep_quiet v _ b) (.refl b)
  · exact .refl b

theorem raiseLost_quiet (c : StepCounters) : ∀ (xs : List LostClaim) (b : Blocks), Quiet b (raiseLost c xs b) :=
  Quiet.fold (fun _ => rfl) (fun _ _ _ => rfl) fun _ b => raise_quiet _ b

theorem setLostAfterTest_quiet (xs : List LostClaim) (b : Blocks) :
    Quiet b { b with du := { b.du with lostAfterTest := xs } } := ⟨⟨id, id, id⟩, rfl⟩

theorem insertionCounted_quiet (v : View) (b : Blocks) : Quiet b (insertionCounted v b) :=
  ((setLostAfterTest_quiet [] b).trans (raiseLost_quiet _ _ _)).trans (stepEndTest_quiet v _)

theorem refuseTally_quiet (v : View) (l k e r : Nat) (b : Blocks) : Quiet b (refuseTally v l k e r b) :=
  (raise_quiet _ b).trans (.ite ((setCounters_quiet _ _).trans (enqueueTally_quiet v l _)) (.refl _))

/-! ### Reconcile (R88) -/

theorem reportLost_quiet (e : QueueEntry) (c : ClaimLostCause) (b : Blocks) : Quiet b (reportLost e c b) :=
  .ite (raise_quiet _ b) (.ite (setLostAfterTest_quiet _ b) (raise_quiet _ b))

/-- The steps of the Dispatch Queue alone changed. -/
structure StepsOnly (b c : Blocks) (steps : List (Nat × Nat)) : Prop where
  sound : Keeps b c
  lane : c.lane = { b.lane with steps := steps }

theorem StepsOnly.quiet {b c d : Blocks} {steps : List (Nat × Nat)} (h : StepsOnly b c steps) (k : Quiet c d) :
    StepsOnly b d steps := ⟨h.sound.trans k.sound, k.lane.trans h.lane⟩

theorem Quiet.stepsOnly {b c d : Blocks} {steps : List (Nat × Nat)} (h : Quiet b c) (k : StepsOnly c d steps) :
    StepsOnly b d steps := ⟨h.sound.trans k.sound, by rw [k.lane, h.lane]⟩

theorem StepsOnly.trans {b c d : Blocks} {ks ls : List (Nat × Nat)} (h : StepsOnly b c ks) (k : StepsOnly c d ls) :
    StepsOnly b d ls := ⟨h.sound.trans k.sound, by rw [k.lane, h.lane]⟩

theorem StepsOnly.steps {b c : Blocks} {steps : List (Nat × Nat)} (h : StepsOnly b c steps) : c.steps = steps :=
  congrArg Lane.steps h.lane

theorem Quiet.toStepsOnly {b c : Blocks} (h : Quiet b c) : StepsOnly b c b.steps := ⟨h.sound, h.lane⟩

/-- The replica shows a lot step CLAIMED by or RUNNING at this station (R88). -/
def View.shows (v : View) (key : Nat × Nat) : Bool :=
  match v.rep.step? key.1 key.2 with
  | some s => s.state.heldBy v.id
  | none => false

theorem stillMine_eq_shows (v : View) (e : QueueEntry) : stillMine v e = v.shows e.key := rfl

/-- The entries of one step leave the queue (R88). -/
theorem dropSteps_stepsOnly (e : QueueEntry) (b : Blocks) :
    StepsOnly b (markDue { b with du := { b.du with
      queue := b.du.queue.filter fun x => !(x.lot == e.lot && x.step == e.step) } })
      (b.steps.filter fun k => k != e.key) := by
  refine ⟨⟨id, id, id⟩, ?_⟩
  have hsteps : (b.du.queue.filter fun x => !(x.lot == e.lot && x.step == e.step)).map QueueEntry.key
      = b.steps.filter fun k => k != e.key := by
    rw [Blocks.steps, List.filter_map]
    congr 1
  simp only [Blocks.lane, Blocks.steps, markDue_du] at hsteps ⊢
  rw [hsteps]
  rfl

theorem removeEntry_stepsOnly (v : View) (a : Bool) (e : QueueEntry) (b : Blocks) :
    StepsOnly b (removeEntry v a e b) (b.steps.filter fun k => k != e.key) := by
  have hwithdraw := ((dropSteps_stepsOnly e b).quiet (withdrawAll_quiet (isStartOf e.lot e.step) _)).quiet
    (withdrawFrame_quiet (.cede e.lot e.step) _)
  have hhalt := hwithdraw.quiet (Quiet.ite (p := beforeRun e.phase = true) (.refl _) (haltStep_quiet _))
  unfold removeEntry
  simp only
  split
  · exact hhalt.quiet (reportLost_quiet e _ _)
  · exact hhalt

/-- The entries that the replica does not show as this station's leave the queue, and only they (R88). -/
theorem removeLost_stepsOnly (v : View) (a : Bool) : ∀ (es : List QueueEntry) (b : Blocks),
    StepsOnly b (removeLost v a es b)
      (b.steps.filter fun k => v.shows k || !(es.map QueueEntry.key).contains k)
  | [], b => by
    have hall : (b.steps.filter fun k => v.shows k || !(([] : List QueueEntry).map QueueEntry.key).contains k) = b.steps :=
      List.filter_eq_self.mpr (by simp)
    rw [hall]
    exact (Quiet.refl b).toStepsOnly
  | e :: es, b => by
    unfold removeLost
    by_cases hmine : stillMine v e = true
    · rw [if_pos hmine]
      have ih := removeLost_stepsOnly v a es b
      have hsame : (b.steps.filter fun k => v.shows k || !((e :: es).map QueueEntry.key).contains k)
          = b.steps.filter fun k => v.shows k || !(es.map QueueEntry.key).contains k := by
        refine List.filter_congr fun k _ => ?_
        rw [stillMine_eq_shows] at hmine
        by_cases hk : k = e.key
        · simp [hk, hmine]
        · simp [hk]
      rwa [hsame]
    · rw [if_neg hmine]
      have hremove := removeEntry_stepsOnly v a e b
      have ih := hremove.trans (removeLost_stepsOnly v a es _)
      rw [hremove.steps, List.filter_filter] at ih
      have hsame : (b.steps.filter fun k => v.shows k || !((e :: es).map QueueEntry.key).contains k)
          = b.steps.filter fun k => (v.shows k || !(es.map QueueEntry.key).contains k) && k != e.key := by
        refine List.filter_congr fun k _ => ?_
        rw [stillMine_eq_shows] at hmine
        by_cases hk : k = e.key
        · simp [hk, hmine]
        · simp [hk]
      rwa [hsame]

/-- Reconcile leaves in the queue the steps that the replica shows as this station's (R88). -/
theorem reconcile_stepsOnly (v : View) (a : Bool) (b : Blocks) :
    StepsOnly b (reconcile v a b) (b.steps.filter v.shows) := by
  have h := (removeLost_stepsOnly v a b.du.queue b).quiet (upkeepRequest_quiet _)
  have hsame : (b.steps.filter fun k => v.shows k || !(b.du.queue.map QueueEntry.key).contains k)
      = b.steps.filter v.shows := by
    refine List.filter_congr fun k hk => ?_
    have hmem : (b.du.queue.map QueueEntry.key).contains k = true := List.contains_iff_mem.mpr hk
    rw [hmem]
    simp
  rwa [hsame] at h

end Sys2Proof.Machine
end

section
/-! The invariant of the Dispatch Queue (R61, R87, R88) as a predicate of the lane, and what the operations that move the
lane do to it: changes of station state, attempts to catch up, reconcile, the end of a command. -/

namespace Sys2Proof.Machine

/-! ### The predicate -/

/-- Each timer of the Catch-up Unit runs in its phase alone (R63 to R65, R71, R75). -/
structure CatchUpUnit.TimersFit (u : CatchUpUnit) : Prop where
  answer : u.answerTimer.isSome = true → u.phase = .requesting
  defer : u.deferTimer.isSome = true → u.phase = .deferred
  snapshot : u.snapshotTimer.isSome = true → u.phase = .receiving
  retry : u.retryTimer.isSome = true → u.phase = .retryWait

/-- The part of the invariant that does not read the replica. -/
structure Lane.Fit (l : Lane) : Prop where
  distinct : l.steps.Nodup
  bid : ∀ x lot k, l.tx = some x → x.body = .bid lot k → (lot, k) ∉ l.steps ∧ l.cu.phase ≠ .receiving
  buffered : ∀ f ∈ l.cu.buffer, f.own = true → f.body.isBid = false
  joining : l.station ≠ .joining → l.cu.phase = .none
  listening : l.listenTimer.isSome = true → isWorking l.station = false ∧ l.cu.phase = .none
  timers : l.cu.TimersFit

/-- The entries of a member of the floor are this station's (R88). -/
def Lane.Own (l : Lane) (v : View) : Prop := isMember l.station = true → ∀ k ∈ l.steps, v.shows k = true

structure QueueOk (v : View) (l : Lane) : Prop where
  fit : l.Fit
  own : l.Own v

theorem queueInv_iff (s : State) : s.queueInv ↔ QueueOk s.view s.blocks.lane := by
  constructor
  · intro h
    refine ⟨⟨h.distinct, h.bid, h.buffered, h.joining, h.listening, ⟨h.answer, h.defer, h.snapshot, h.retry⟩⟩, ?_⟩
    intro hmember k hk
    obtain ⟨e, he, rfl⟩ := List.mem_map.mp hk
    exact h.own hmember e he
  · rintro ⟨h, hown⟩
    exact ⟨h.distinct, fun hmember e he => hown hmember e.key (List.mem_map_of_mem he), h.bid, h.buffered, h.joining,
      h.listening, h.timers.answer, h.timers.defer, h.timers.snapshot, h.timers.retry⟩

/-- What is sound stays sound, and the invariant of the Dispatch Queue is kept. -/
structure Steady (v : View) (b c : Blocks) : Prop where
  sound : Keeps b c
  queue : QueueOk v b.lane → QueueOk v c.lane

theorem Quiet.steady {v : View} {b c : Blocks} (h : Quiet b c) : Steady v b c := ⟨h.sound, fun k => h.lane ▸ k⟩

theorem Steady.refl (v : View) (b : Blocks) : Steady v b b := ⟨.refl b, id⟩

theorem Steady.trans {v : View} {a b c : Blocks} (h : Steady v a b) (k : Steady v b c) : Steady v a c :=
  ⟨h.sound.trans k.sound, fun x => k.queue (h.queue x)⟩

theorem Steady.ite {v : View} {p : Prop} [Decidable p] {a b c : Blocks} (h : Steady v a b) (k : Steady v a c) :
    Steady v a (if p then b else c) := by
  split
  · exact h
  · exact k

/-! ### Changes of a lane -/

/-- A station that is no member of the floor is free of the replica. -/
theorem Lane.Fit.ok {v : View} {l : Lane} (h : l.Fit) (hs : isMember l.station = false) : QueueOk v l :=
  ⟨h, fun hm => by simp [hs] at hm⟩

theorem Lane.Fit.phase_none {l : Lane} (h : l.Fit) (hs : l.station ≠ .joining) : l.cu.phase = .none := h.joining hs

/-- An attempt under way is in JOINING, and the listen timer is stopped (R61, R62). -/
theorem Lane.Fit.joining_of_phase {l : Lane} (h : l.Fit) (hp : l.cu.phase ≠ .none) :
    l.station = .joining ∧ l.listenTimer = none :=
  ⟨by_contra fun hs => hp (h.joining hs),
    by_contra fun hl => hp (h.listening (Option.isSome_iff_ne_none.mpr hl)).2⟩

/-- A working station has its listen timer stopped. -/
theorem Lane.Fit.listen_none {l : Lane} (h : l.Fit) (hs : isWorking l.station = true) : l.listenTimer = none := by
  by_contra hl
  have := (h.listening (Option.isSome_iff_ne_none.mpr hl)).1
  simp [hs] at this

theorem isWorking_of_isMember {s : StationState} (h : isMember s = true) : isWorking s = true := by
  cases s <;> simp_all [isMember, isWorking]

theorem ne_joining_of_isMember {s : StationState} (h : isMember s = true) : s ≠ .joining := by
  rintro rfl
  simp [isMember] at h

/-- Another station state. -/
theorem Lane.Fit.enter {l : Lane} (h : l.Fit) {new : StationState} (joining : new ≠ .joining → l.cu.phase = .none)
    (listening : l.listenTimer.isSome = true → isWorking new = false) : Lane.Fit { l with station := new } :=
  ⟨h.distinct, h.bid, h.buffered, joining, fun k => ⟨listening k, (h.listening k).2⟩, h.timers⟩

/-- Steps leave the queue. -/
theorem Lane.Fit.sublist {l : Lane} (h : l.Fit) {ks : List (Nat × Nat)} (hks : ks.Sublist l.steps) :
    Lane.Fit { l with steps := ks } :=
  ⟨h.distinct.sublist hks, fun x lot k hx hb => ⟨fun hm => (h.bid x lot k hx hb).1 (hks.subset hm), (h.bid x lot k hx hb).2⟩,
    h.buffered, h.joining, h.listening, h.timers⟩

/-- The listen timer stopped. -/
theorem Lane.Fit.stopListen {l : Lane} (h : l.Fit) : Lane.Fit { l with listenTimer := none } :=
  ⟨h.distinct, h.bid, h.buffered, h.joining, fun k => by simp at k, h.timers⟩

/-- The Catch-up Unit changed to a phase other than RECEIVING, with an empty buffer. -/
theorem Lane.Fit.setCu {l : Lane} (h : l.Fit) {u : CatchUpUnit} (timers : u.TimersFit) (buffer : u.buffer = [])
    (phase : u.phase ≠ .receiving) (joining : l.station ≠ .joining → u.phase = .none)
    (listening : l.listenTimer.isSome = true → u.phase = .none) : Lane.Fit { l with cu := u } :=
  ⟨h.distinct, fun x lot k hx hb => ⟨(h.bid x lot k hx hb).1, phase⟩, by simp [buffer], joining,
    fun k => ⟨(h.listening k).1, listening k⟩, timers⟩

/-! ### Reconcile (R88) -/

theorem StepsOnly.fit {b c : Blocks} {ks : List (Nat × Nat)} (h : StepsOnly b c ks) (hks : ks.Sublist b.steps)
    (hf : b.lane.Fit) : c.lane.Fit := h.lane ▸ hf.sublist hks

/-- Reconcile makes the entries this station's, whatever they were (R88). -/
theorem reconcile_ok (v : View) (a : Bool) (b : Blocks) (hf : b.lane.Fit) : QueueOk v (reconcile v a b).lane := by
  have h := reconcile_stepsOnly v a b
  refine ⟨h.fit List.filter_sublist hf, fun _ k hk => ?_⟩
  rw [h.lane] at hk
  exact (List.mem_filter.mp hk).2

theorem reconcile_steady (v : View) (a : Bool) (b : Blocks) : Steady v b (reconcile v a b) :=
  ⟨(reconcile_stepsOnly v a b).sound, fun h => reconcile_ok v a b h.fit⟩

/-! ### Changes of station state (R26, R29, R33 to R35) -/

theorem offerBeacon_quiet (b : Blocks) : Quiet b (offerBeacon b) := offer_quiet ..

/-- The station state alone of the lane changed. -/
structure Enters (b c : Blocks) (new : StationState) : Prop where
  sound : Keeps b c
  lane : c.lane = { b.lane with station := new }

theorem Enters.quiet {b c d : Blocks} {new : StationState} (h : Enters b c new) (k : Quiet c d) : Enters b d new :=
  ⟨h.sound.trans k.sound, k.lane.trans h.lane⟩

theorem Enters.station {b c : Blocks} {new : StationState} (h : Enters b c new) : c.station = new :=
  congrArg Lane.station h.lane

/-- Of the lane, a change of station state changes that alone; what the owners owe is offered again (R26). -/
theorem enterState_enters (v : View) (new : StationState) (b : Blocks) : Enters b (enterState v new b) new := by
  have hset : Enters b { b with pu := { b.pu with
      station := new, beaconTimer := if beacons new then some v.cfg.beaconInterval else none } } new :=
    ⟨⟨id, id, id⟩, rfl⟩
  have hbeacon := hset.quiet (Quiet.ite (p := beacons new = true) (offerBeacon_quiet _) (.refl _))
  have hleft := hbeacon.quiet
    (Quiet.ite (p := (isMember b.station && !isMember new) = true) (leaveMembership_quiet _) (.refl _))
  have hreleases := hleft.quiet (Quiet.ite (p := isWorking new = true) (.refl _) (setReleases_quiet [] _))
  have howed := hreleases.quiet (Quiet.ite (p := acceptsFrames new = true) (reofferOwed_quiet v _) (.refl _))
  exact howed.quiet (markDue_quiet _)

theorem isolate_enters (v : View) (c : AttemptCause) (b : Blocks) : Enters b (isolate v c b) .isolated := by
  have hraise := (enterState_enters v .isolated b).quiet (raise_quiet (.isolated c) _)
  refine Enters.quiet ?_ (releaseChecks_quiet v _)
  split
  · exact hraise.quiet (.ite ((endRequest_quiet _).trans (askAgain_quiet v _ _ _)) (.refl _))
  · exact hraise

/-! ### Attempts to catch up (R62, R75, R76) -/

/-- The lane of a station that may make an attempt: in JOINING, outside the listen wait. -/
structure Lane.MayAttempt (l : Lane) : Prop where
  fit : l.Fit
  joining : l.station = .joining
  listen : l.listenTimer = none

theorem Lane.Fit.mayAttempt {l : Lane} (h : l.Fit) (hp : l.cu.phase ≠ .none) : l.MayAttempt :=
  ⟨h, (h.joining_of_phase hp).1, (h.joining_of_phase hp).2⟩

/-- The Catch-up Unit after a failed attempt (R75). -/
def CatchUpUnit.failed (v : View) (u : CatchUpUnit) : CatchUpUnit :=
  { u with
    phase := if v.cfg.attemptLimit ≤ u.attempts + 1 then .none else .retryWait
    attempts := u.attempts + 1, reference := none, buffer := [], copy := .empty
    answerTimer := none, snapshotTimer := none, deferTimer := none
    retryTimer := if v.cfg.attemptLimit ≤ u.attempts + 1 then none else some v.cfg.beaconInterval }

theorem CatchUpUnit.failed_timersFit (v : View) (u : CatchUpUnit) : (u.failed v).TimersFit := by
  refine ⟨fun h => by simp [failed] at h, fun h => by simp [failed] at h, fun h => by simp [failed] at h, fun h => ?_⟩
  simp only [failed] at h ⊢
  split at h
  · simp at h
  · next below => rw [if_neg below]

/-- The Catch-up Unit replaced by one with no snapshot under reception and an empty buffer. -/
theorem setCu_keeps (u : CatchUpUnit) (buffer : u.buffer = []) (copy : copySound u.copy = true) (b : Blocks) :
    Keeps b { b with cu := u } :=
  ⟨fun ⟨hlc, hjunk, _, hrest⟩ => ⟨hlc, hjunk, by simp [buffer], hrest⟩, fun _ => copy, id⟩

/-- The blocks once an attempt has failed, before the station leaves JOINING at the limit (R75). -/
def attemptFailed (v : View) (c : AttemptCause) (b : Blocks) : Blocks :=
  raise (.catchUpFailed c b.cu.reference (b.cu.attempts + 1)) { withdrawAll isCatchReq b with cu := b.cu.failed v }

theorem failAttempt_eq (v : View) (c : AttemptCause) (b : Blocks) :
    failAttempt v c b = if v.cfg.attemptLimit ≤ b.cu.attempts + 1 then isolate v c (attemptFailed v c b)
      else attemptFailed v c b := rfl

theorem attemptFailed_keeps (v : View) (c : AttemptCause) (b : Blocks) : Keeps b (attemptFailed v c b) :=
  ((withdrawAll_quiet isCatchReq b).sound.trans (setCu_keeps (b.cu.failed v) rfl rfl _)).trans (raise_keeps _ _)

theorem attemptFailed_lane (v : View) (c : AttemptCause) (b : Blocks) :
    (attemptFailed v c b).lane = { b.lane with cu := { (b.cu.failed v) with session := none } } := by
  have hreq := withdrawAll_quiet isCatchReq b
  simp only [attemptFailed, Blocks.lane, Lane.mk.injEq]
  exact ⟨hreq.steps, hreq.station, hreq.tx, rfl, rfl⟩

/-- An attempt of a station in JOINING fails: it goes on to RETRY WAIT, or into ISOLATED at the limit (R75, R76). -/
theorem attemptFailed_fit (v : View) (c : AttemptCause) (b : Blocks) (h : b.lane.MayAttempt) :
    (attemptFailed v c b).lane.Fit := by
  rw [attemptFailed_lane]
  have ht := b.cu.failed_timersFit v
  refine h.fit.setCu ⟨ht.answer, ht.defer, ht.snapshot, ht.retry⟩ rfl ?_ (fun hs => absurd h.joining hs)
    (fun hl => by simp [h.listen] at hl)
  simp only [CatchUpUnit.failed]
  split <;> simp

theorem failAttempt_keeps (v : View) (c : AttemptCause) (b : Blocks) : Keeps b (failAttempt v c b) := by
  rw [failAttempt_eq]
  exact .ite ((attemptFailed_keeps v c b).trans (isolate_enters v c _).sound) (attemptFailed_keeps v c b)

theorem failAttempt_ok (v w : View) (c : AttemptCause) (b : Blocks) (h : b.lane.MayAttempt) :
    QueueOk w (failAttempt v c b).lane := by
  have hfit := attemptFailed_fit v c b h
  rw [failAttempt_eq]
  split
  · next limit =>
    rw [(isolate_enters v c _).lane]
    refine (hfit.enter (fun _ => ?_) fun hl => ?_).ok rfl
    · simp [attemptFailed_lane, CatchUpUnit.failed, limit]
    · simp [attemptFailed_lane, h.listen] at hl
  · refine hfit.ok ?_
    rw [attemptFailed_lane]
    exact congrArg isMember h.joining

/-- The Catch-up Unit where an attempt begins, before the choice of a reference (R62). -/
def CatchUpUnit.begun (u : CatchUpUnit) : CatchUpUnit :=
  { u with
    defers := 0, expected := 0, buffer := [], copy := .empty, retryTimer := none, answerTimer := none
    snapshotTimer := none, deferTimer := none }

theorem enqueueReq_quiet (r : Nat) (b : Blocks) : Quiet b (enqueueReq r b) := offer_quiet ..

theorem beginAttempt_keeps (v : View) (b : Blocks) : Keeps b (beginAttempt v b) := by
  have hbegun : Keeps b { b with cu := b.cu.begun } := setCu_keeps _ rfl rfl b
  unfold beginAttempt
  simp only
  split
  · next r _ =>
    exact (hbegun.trans (setCu_keeps { b.cu.begun with phase := .requesting, reference := some r } rfl rfl _)).trans
      (enqueueReq_quiet r _).sound
  · exact (hbegun.trans (setCu_keeps { b.cu.begun with reference := none } rfl rfl _)).trans (failAttempt_keeps v _ _)

/-- An attempt that begins in JOINING (R62). -/
theorem beginAttempt_ok (v w : View) (b : Blocks) (h : b.lane.MayAttempt) (hp : b.cu.phase ≠ .receiving) :
    QueueOk w (beginAttempt v b).lane := by
  have hjoining : b.station = .joining := h.joining
  have hlisten : b.pu.listenTimer = none := h.listen
  unfold beginAttempt
  simp only
  split
  · next r _ =>
    rw [(enqueueReq_quiet r _).lane]
    refine Lane.Fit.ok (h.fit.setCu (u := { b.cu.begun with phase := .requesting, reference := some r, session := none })
      ⟨fun k => rfl, fun k => by simp [CatchUpUnit.begun] at k, fun k => by simp [CatchUpUnit.begun] at k,
        fun k => by simp [CatchUpUnit.begun] at k⟩ rfl (by simp) (fun hs => absurd hjoining hs)
      (fun hl => by simp [h.listen] at hl)) (congrArg isMember hjoining)
  · refine failAttempt_ok v w _ _ ⟨h.fit.setCu (u := { b.cu.begun with reference := none, session := none })
      ⟨fun k => by simp [CatchUpUnit.begun] at k, fun k => by simp [CatchUpUnit.begun] at k,
        fun k => by simp [CatchUpUnit.begun] at k, fun k => by simp [CatchUpUnit.begun] at k⟩ rfl hp
      (fun hs => absurd hjoining hs) (fun hl => by simp [h.listen] at hl), hjoining, hlisten⟩

theorem startCatchUp_keeps (v : View) (b : Blocks) : Keeps b (startCatchUp v b) :=
  Keeps.trans (b := { b with cu := { b.cu with attempts := 0 } }) ⟨id, id, id⟩ (beginAttempt_keeps v _)

theorem startCatchUp_ok (v w : View) (b : Blocks) (h : b.lane.MayAttempt) (hp : b.cu.phase = .none) :
    QueueOk w (startCatchUp v b).lane := by
  refine beginAttempt_ok v w _ ⟨?_, h.joining, h.listen⟩ (by simp [hp])
  have ht := h.fit.timers
  exact ⟨h.fit.distinct, h.fit.bid, h.fit.buffered, h.fit.joining, h.fit.listening,
    ⟨ht.answer, ht.defer, ht.snapshot, ht.retry⟩⟩

/-- ACTIVE or PARKED left for JOINING, with a catch-up started (R29). -/
theorem diverge_keeps (v : View) (c : DivergedCause) (b : Blocks) : Keeps b (diverge v c b) :=
  (((enterState_enters v .joining b).sound.trans (raise_keeps _ _)).trans (abandonLeave_quiet _ _).sound).trans
    (startCatchUp_keeps v _)

/-- A working station, no attempt of which is under way, that enters JOINING may make one. -/
theorem mayAttempt_of_enters {b c : Blocks} (h : Enters b c .joining) (hf : b.lane.Fit)
    (hl : b.pu.listenTimer = none) : c.lane.MayAttempt := by
  rw [h.lane]
  exact ⟨hf.enter (fun k => absurd rfl k) fun k => by simp [Blocks.lane, hl] at k, rfl, hl⟩

theorem diverge_ok (v w : View) (c : DivergedCause) (b : Blocks) (hf : b.lane.Fit)
    (hm : isMember b.station = true) : QueueOk w (diverge v c b).lane := by
  have h := ((enterState_enters v .joining b).quiet (raise_quiet (.diverged c) _)).quiet (abandonLeave_quiet .badState _)
  have hphase : b.cu.phase = .none := hf.phase_none (ne_joining_of_isMember hm)
  refine startCatchUp_ok v w _ (mayAttempt_of_enters h hf (hf.listen_none (isWorking_of_isMember hm))) ?_
  rw [← hphase]
  exact congrArg (fun l : Lane => l.cu.phase) h.lane

theorem divergeIfMember_steady (v w : View) (c : DivergedCause) (b : Blocks) : Steady w b (divergeIfMember v c b) := by
  unfold divergeIfMember
  split
  · next hm => exact ⟨diverge_keeps v c b, fun h => diverge_ok v w c b h.fit hm⟩
  · exact .refl w b

/-! ### Entries to the station states -/

theorem bringIntoLine_keeps (v : View) (a : Bool) (b : Blocks) : Keeps b (bringIntoLine v a b) :=
  (((reconcile_stepsOnly v a b).sound.trans (Quiet.ite (setSerial_quiet _ _) (.refl _)).sound).trans
    (agreeWithReplica_quiet v _).sound).trans (releaseChecks_quiet v _).sound

theorem bringIntoLine_ok (v : View) (a : Bool) (b : Blocks) (hf : b.lane.Fit) :
    QueueOk v (bringIntoLine v a b).lane :=
  (((Quiet.ite (setSerial_quiet _ _) (.refl _)).trans (agreeWithReplica_quiet v _)).trans
    (releaseChecks_quiet v _)).steady.queue (reconcile_ok v a b hf)

theorem setListen_keeps (t : Option Nat) (w : Bool) (b : Blocks) : Keeps b (setListen t w b) := ⟨id, id, id⟩

theorem found_keeps (v : View) (b : Blocks) : Keeps b (found v b) :=
  ((((setListen_keeps none false b).trans (enterState_enters v .active _).sound).trans (raise_keeps _ _)).trans
    (orphanCheck_quiet v _).sound).trans (bringIntoLine_keeps v false _)

/-- A station with no attempt under way founds the floor (R23). -/
theorem found_ok (v : View) (b : Blocks) (hf : b.lane.Fit) (hp : b.cu.phase = .none) :
    QueueOk v (found v b).lane := by
  have h := ((enterState_enters v .active (setListen none false b)).quiet (raise_quiet .founded _)).quiet
    (orphanCheck_quiet v _)
  refine bringIntoLine_ok v false (orphanCheck v (raise .founded (enterState v .active (setListen none false b)))) ?_
  exact h.lane ▸ hf.stopListen.enter (fun _ => hp) fun k => by simp at k

/-- PARKED left for ACTIVE (R33). -/
theorem unpark_steady (v : View) (b : Blocks) : Steady v b (unpark v b) := by
  unfold unpark
  split
  · next hs =>
    have hparked : b.station = .parked := by simpa using hs
    have h := (enterState_enters v .active b).quiet (orphanCheck_quiet v _)
    refine ⟨h.sound.trans (reconcile_stepsOnly v false _).sound, fun hq => reconcile_ok v false _ ?_⟩
    rw [h.lane]
    have hlisten : b.lane.listenTimer = none := hq.fit.listen_none (by simp [Blocks.lane, hparked, isWorking])
    exact hq.fit.enter (fun _ => hq.fit.phase_none (by simp [Blocks.lane, hparked])) fun k => by simp [hlisten] at k
  · exact .refl v b

/-- Entry to PARKED from ACTIVE (R33). -/
theorem park_steady (v : View) (b : Blocks) (hs : b.station = .active) : Steady v b (park v b) := by
  have h := ((enterState_enters v .parked b).quiet (raise_quiet .parked _)).quiet (orphanCheck_quiet v _)
  refine ⟨h.sound, fun hq => ?_⟩
  have hlisten : b.lane.listenTimer = none := hq.fit.listen_none (by simp [Blocks.lane, hs, isWorking])
  have hlane : (park v b).lane = { b.lane with station := .parked } := h.lane
  rw [hlane]
  exact ⟨hq.fit.enter (fun _ => hq.fit.phase_none (by simp [Blocks.lane, hs])) fun k => by simp [hlisten] at k,
    fun _ => hq.own (by simp [Blocks.lane, hs, isMember])⟩

/-- Entry to LISTENING from a state in which no attempt runs (R21, R35). -/
theorem listen_steady (v w : View) (b : Blocks) (hs : b.station ≠ .joining) : Steady w b (listen v b) := by
  have h := enterState_enters v .listening
    { b with pu := { b.pu with listenTimer := some Config.listenMs, listenWait := false, conflictRaised := false } }
  refine ⟨Keeps.trans (b := { b with pu := { b.pu with
    listenTimer := some Config.listenMs, listenWait := false, conflictRaised := false } }) ⟨id, id, id⟩ h.sound,
    fun hq => ?_⟩
  have hphase : b.cu.phase = .none := hq.fit.phase_none hs
  have hlane : (listen v b).lane = { b.lane with station := .listening, listenTimer := some Config.listenMs } := h.lane
  rw [hlane]
  have hf := hq.fit
  exact Lane.Fit.ok ⟨hf.distinct, hf.bid, hf.buffered, fun _ => hphase, fun _ => ⟨rfl, hphase⟩, hf.timers⟩ rfl

/-- The Catch-up Unit once an attempt has been dropped (R61). -/
def CatchUpUnit.dropped (u : CatchUpUnit) : CatchUpUnit :=
  { u with
    phase := .none, reference := none, buffer := []
    attempts := if u.phase == .none then u.attempts else 0
    copy := if u.session.isSome then u.copy else .empty
    answerTimer := none, snapshotTimer := none, deferTimer := none, retryTimer := none }

theorem dropCu_keeps (b : Blocks) : Keeps b { b with cu := b.cu.dropped } := by
  refine ⟨fun ⟨hlc, hjunk, _, hrest⟩ => ⟨hlc, hjunk, Nat.zero_le _, hrest⟩, fun hcopy => ?_, id⟩
  simp only [CatchUpUnit.dropped]
  split
  · exact hcopy
  · rfl

theorem dropAttempt_keeps (b : Blocks) : Keeps b (dropAttempt b) := (dropCu_keeps b).trans (withdrawAll_keeps _ _)

/-- The Catch-up Unit of the lane once an attempt has been dropped (R61). -/
theorem dropAttempt_lane (b : Blocks) : ∃ n, (dropAttempt b).lane = { b.lane with cu := { b.lane.cu with
    phase := .none, attempts := n, reference := none, buffer := [], answerTimer := none, snapshotTimer := none
    deferTimer := none, retryTimer := none } } :=
  ⟨_, (withdrawAll_quiet isCatchReq _).lane⟩

/-- The fields that an entry to FAULTED sets besides the station state and the Catch-up Unit (R35, R133). -/
def stopForFault (b : Blocks) : Blocks :=
  { b with
    pu := { b.pu with listenTimer := none, parkTimer := none, listenWait := false }
    iw := { b.iw with halt := true } }

theorem stopForFault_keeps (b : Blocks) : Keeps b (stopForFault b) := ⟨id, id, id⟩

/-- Entry to FAULTED, from any station state (R35, R61). -/
theorem enterFaulted_steady (v w : View) (b : Blocks) : Steady w b (enterFaulted v b) := by
  have henter := enterState_enters v .faulted b
  obtain ⟨n, hdrop⟩ := dropAttempt_lane (enterState v .faulted b)
  have habandon := abandonLeave_quiet .badState (stopForFault (dropAttempt (enterState v .faulted b)))
  refine ⟨((henter.sound.trans (dropAttempt_keeps _)).trans (stopForFault_keeps _)).trans habandon.sound,
    fun hq => ?_⟩
  have hlane : (enterFaulted v b).lane = { b.lane with
      station := .faulted, listenTimer := none
      cu := { b.lane.cu with
        phase := .none, attempts := n, reference := none, buffer := [], answerTimer := none, snapshotTimer := none
        deferTimer := none, retryTimer := none } } := by
    have hstopped : (enterFaulted v b).lane
        = { (dropAttempt (enterState v .faulted b)).lane with listenTimer := none } := habandon.lane
    rw [hstopped, hdrop, henter.lane]
  rw [hlane]
  have hf := hq.fit
  exact Lane.Fit.ok ⟨hf.distinct, fun x lot k hx hb => ⟨(hf.bid x lot k hx hb).1, by simp⟩, by simp, fun _ => rfl,
    fun hl => by simp at hl,
    ⟨fun k => by simp at k, fun k => by simp at k, fun k => by simp at k, fun k => by simp at k⟩⟩ rfl

/-! ### The end of a command (R34) -/

theorem emptyDispatchQueue_stepsOnly (v : View) (b : Blocks) : StepsOnly b (emptyDispatchQueue v b) [] := by
  have h := reconcile_stepsOnly v false b
  refine ⟨h.sound.trans ⟨id, id, id⟩, ?_⟩
  have hempty : (emptyDispatchQueue v b).lane = { (reconcile v false b).lane with steps := [] } := rfl
  rw [hempty, h.lane]

/-- The fields that an entry to OFFLINE clears (R18, R61, R77). -/
def goOffline (b : Blocks) : Blocks :=
  { b with
    pu := { b.pu with station := .offline, peers := [], beaconTimer := none, listenTimer := none,
                      parkTimer := none, listenWait := false }
    cu := .reset
    du := { b.du with timers := [], leaving := false, releases := [] } }

theorem goOffline_keeps (b : Blocks) : Keeps b (goOffline b) :=
  ⟨fun ⟨hlc, hjunk, _, hrest⟩ => ⟨hlc, hjunk, Nat.zero_le _, hrest⟩, fun _ => rfl, id⟩

/-- The lane in OFFLINE with an empty Dispatch Queue fits. -/
theorem offline_fit (tx : Option TxFrame) : Lane.Fit ⟨[], .offline, tx, .reset, none⟩ :=
  ⟨List.nodup_nil, fun _ _ _ _ _ => ⟨List.not_mem_nil, by simp [CatchUpUnit.reset]⟩, by simp [CatchUpUnit.reset],
    fun _ => rfl, fun h => by simp at h,
    ⟨fun k => by simp [CatchUpUnit.reset] at k, fun k => by simp [CatchUpUnit.reset] at k,
      fun k => by simp [CatchUpUnit.reset] at k, fun k => by simp [CatchUpUnit.reset] at k⟩⟩

/-- The end of a LEAVE sequence empties the lane (R34, R61, R129). -/
theorem enterOffline_steady (v w : View) (b : Blocks) : Steady w b (enterOffline v b) := by
  have hempty := ((emptyDispatchQueue_stepsOnly v b).quiet (endSession_quiet _)).quiet (endRequest_quiet _)
  have hsend : Quiet (goOffline (endRequest (endSession (emptyDispatchQueue v b)))) (enterOffline v b) :=
    ((emptySendQueue_quiet v _).trans (raise_quiet .left _)).trans (markDue_quiet _)
  refine ⟨(hempty.sound.trans (goOffline_keeps _)).trans hsend.sound, fun _ => ?_⟩
  have hlane : (enterOffline v b).lane = ⟨[], .offline, b.lc.tx, .reset, none⟩ := by
    have hsteps : (goOffline (endRequest (endSession (emptyDispatchQueue v b)))).steps = [] := hempty.steps
    have htx : (goOffline (endRequest (endSession (emptyDispatchQueue v b)))).lc.tx = b.lc.tx :=
      congrArg Lane.tx hempty.lane
    rw [hsend.lane, Blocks.lane, hsteps, htx]
    rfl
  rw [hlane]
  exact (offline_fit _).ok rfl

theorem completeLeave_steady (v w : View) (b : Blocks) : Steady w b (completeLeave v b) :=
  .ite ((enterOffline_steady v w b).trans (settle_quiet v _).steady) (.refl w b)

/-- The end of every command keeps what is sound and the Dispatch Queue. -/
theorem finish_steady (v w : View) (b : Blocks) : Steady w b (finish v b) :=
  ((settle_quiet v b).steady.trans (completeLeave_steady v w _)).trans (keepParkTimer_quiet v _).steady

end Sys2Proof.Machine
end

section
/-! What a heard frame does to the lane: the requester side of a catch-up (R63 to R73), the signal of an application
(R39), and the Presence Unit's hearing of a peer (R22, R24, R28). -/

namespace Sys2Proof.Machine

/-! ### The reference side (R66 to R70) -/

theorem setSession_quiet (ss : Option ServeSession) (b : Blocks) : Quiet b (setSession ss b) := ⟨⟨id, id, id⟩, rfl⟩

theorem openSession_quiet (r : Nat) (b : Blocks) : Quiet b (openSession r b) :=
  (setSession_quiet _ b).trans (offer_quiet ..)

theorem serveReq_quiet (r : Nat) (b : Blocks) : Quiet b (serveReq r b) := by
  unfold serveReq
  refine .ite ?_ (.refl b)
  split
  · exact openSession_quiet r b
  · refine .ite ?_ (offer_quiet ..)
    split
    · exact .refl b
    · exact (endSession_quiet b).trans (openSession_quiet r _)

theorem nextSnap_quiet (ss : ServeSession) (b : Blocks) : Quiet b (nextSnap ss b) := by
  unfold nextSnap
  simp only
  split
  · exact (setSession_quiet _ b).trans (offer_quiet ..)
  · exact offer_quiet ..

theorem snapSent_quiet (body : FrameBody) (t : Nat) (b : Blocks) : Quiet b (snapSent body t b) := by
  unfold snapSent
  split
  · split
    · exact nextSnap_quiet _ b
    · exact nextSnap_quiet _ b
    · exact setCopy_quiet none .empty rfl b
    · exact .refl b
  · exact .refl b

theorem copyReplica_quiet (v : View) (b : Blocks) : Quiet b (copyReplica v b) := setCopy_quiet _ _ rfl b

theorem reopenSession_quiet (b : Blocks) : Quiet b (reopenSession b) := setSession_quiet _ b

/-! ### The requester side (R63 to R73) -/

/-- The Catch-up Unit changed in the same phase with the same buffer. -/
theorem Lane.Fit.samePhase {l : Lane} (h : l.Fit) {u : CatchUpUnit} (phase : u.phase = l.cu.phase)
    (buffer : u.buffer = l.cu.buffer) (timers : u.TimersFit) : Lane.Fit { l with cu := u } :=
  ⟨h.distinct, fun x lot k hx hb => ⟨(h.bid x lot k hx hb).1, phase ▸ (h.bid x lot k hx hb).2⟩,
    fun f hf => h.buffered f (buffer ▸ hf), fun hs => phase ▸ h.joining hs,
    fun hl => ⟨(h.listening hl).1, phase ▸ (h.listening hl).2⟩, timers⟩

/-- In a phase other than NONE the station is in JOINING, so no member of the floor. -/
theorem Lane.Fit.ok_of_phase {v : View} {l : Lane} (h : l.Fit) (hp : l.cu.phase ≠ .none) : QueueOk v l :=
  h.ok (congrArg isMember (h.joining_of_phase hp).1)

theorem reqHeard_steady (v : View) (target : Nat) (b : Blocks) : Steady v b (reqHeard target b) := by
  unfold reqHeard
  split
  · next hc =>
    have hphase : b.cu.phase = .requesting := by simp_all
    refine ⟨⟨id, id, id⟩, fun h => ?_⟩
    have ht := h.fit.timers
    exact Lane.Fit.ok_of_phase (h.fit.samePhase (u := { b.lane.cu with answerTimer := some Config.exchangeMs }) rfl rfl
      ⟨fun _ => hphase, ht.defer, ht.snapshot, ht.retry⟩) (by simp [Blocks.lane, hphase])
  · exact .refl v b

theorem failAttempt_steady (v w : View) (c : AttemptCause) (b : Blocks) (hp : b.cu.phase ≠ .none) :
    Steady w b (failAttempt v c b) :=
  ⟨failAttempt_keeps v c b, fun h => failAttempt_ok v w c b (h.fit.mayAttempt hp)⟩

theorem awaitsAnswer_phase {u : CatchUpUnit} (h : awaitsAnswer u = true) : u.phase = .requesting := by
  simp_all [awaitsAnswer]

/-- With a phase that is not NONE, the timers of the other phases are stopped. -/
theorem CatchUpUnit.TimersFit.stopped {u : CatchUpUnit} (h : u.TimersFit) :
    (u.phase ≠ .requesting → u.answerTimer = none) ∧ (u.phase ≠ .deferred → u.deferTimer = none) ∧
      (u.phase ≠ .receiving → u.snapshotTimer = none) ∧ (u.phase ≠ .retryWait → u.retryTimer = none) := by
  refine ⟨fun hp => ?_, fun hp => ?_, fun hp => ?_, fun hp => ?_⟩
  · exact by_contra fun k => hp (h.answer (Option.isSome_iff_ne_none.mpr k))
  · exact by_contra fun k => hp (h.defer (Option.isSome_iff_ne_none.mpr k))
  · exact by_contra fun k => hp (h.snapshot (Option.isSome_iff_ne_none.mpr k))
  · exact by_contra fun k => hp (h.retry (Option.isSome_iff_ne_none.mpr k))

theorem deferHeard_steady (v w : View) (b : Blocks) : Steady w b (deferHeard v b) := by
  unfold deferHeard
  split
  · next hc =>
    have hphase : b.cu.phase = .requesting := awaitsAnswer_phase hc
    simp only
    split
    · refine Steady.trans (b := { b with cu := { b.cu with defers := b.cu.defers + 1 } }) ⟨⟨id, id, id⟩, fun h => ?_⟩
        (failAttempt_steady v w _ _ (by simp [hphase]))
      have ht := h.fit.timers
      exact Lane.Fit.ok_of_phase (h.fit.samePhase (u := { b.lane.cu with defers := b.cu.defers + 1 }) rfl rfl
        ⟨ht.answer, ht.defer, ht.snapshot, ht.retry⟩) (by simp [Blocks.lane, hphase])
    · refine ⟨⟨id, id, id⟩, fun h => ?_⟩
      obtain ⟨hjoining, hlisten⟩ := h.fit.joining_of_phase (by simp [Blocks.lane, hphase])
      obtain ⟨_, _, hsnapshot, hretry⟩ := h.fit.timers.stopped
      have hsn : b.cu.snapshotTimer = none := hsnapshot (by simp [Blocks.lane, hphase])
      have hre : b.cu.retryTimer = none := hretry (by simp [Blocks.lane, hphase])
      have hf := h.fit
      exact Lane.Fit.ok_of_phase (l := { b.lane with cu := { b.lane.cu with
          defers := b.cu.defers + 1, answerTimer := none, phase := .deferred, deferTimer := some v.cfg.beaconInterval } })
        ⟨hf.distinct, fun x lot k hx hb => ⟨(hf.bid x lot k hx hb).1, by simp⟩, hf.buffered,
          fun hs => absurd hjoining hs, fun hl => by simp [hlisten] at hl,
          ⟨fun k => by simp at k, fun _ => rfl, fun k => by simp [Blocks.lane, hsn] at k,
            fun k => by simp [Blocks.lane, hre] at k⟩⟩ (by simp)
  · exact .refl w b

/-- RECEIVING begins in REQUESTING or DEFERRED, with no own frame in transmission (R71). -/
theorem beginReceiving_steady (w : View) (c d : Word32) (l h k : Nat) (b : Blocks)
    (hp : b.cu.phase = .requesting ∨ b.cu.phase = .deferred) (htx : b.lc.tx = none) :
    Steady w b (beginReceiving c d l h k b) := by
  refine ⟨⟨fun ⟨hlc, hjunk, _, hrest⟩ => ⟨hlc, hjunk, Nat.zero_le _, hrest⟩, fun _ => rfl, id⟩, fun hq => ?_⟩
  have hne : b.cu.phase ≠ .none := by rcases hp with hp | hp <;> simp [hp]
  have hnr : b.cu.phase ≠ .retryWait := by rcases hp with hp | hp <;> simp [hp]
  have hf := hq.fit
  obtain ⟨hjoining, hlisten⟩ := hf.joining_of_phase hne
  have hre : b.cu.retryTimer = none := hf.timers.stopped.2.2.2 hnr
  exact Lane.Fit.ok_of_phase (l := { b.lane with cu := { b.lane.cu with
      phase := .receiving, answerTimer := none, deferTimer := none, snapshotTimer := some Config.exchangeMs
      expected := 0, buffer := [] } })
    ⟨hf.distinct, fun x _ _ hx _ => by simp [Blocks.lane, htx] at hx, by simp, fun hs => absurd hjoining hs,
      fun hl => by simp [hlisten] at hl,
      ⟨fun k => by simp at k, fun k => by simp at k, fun _ => rfl, fun k => by simp [Blocks.lane, hre] at k⟩⟩ (by simp)

theorem beginHeard_steady (v w : View) (c d : Word32) (l h k : Nat) (b : Blocks) (htx : b.lc.tx = none) :
    Steady w b (beginHeard v c d l h k b) := by
  unfold beginHeard
  split
  · next hc =>
    refine beginReceiving_steady w c d l h k b ?_ htx
    rcases Bool.or_eq_true_iff.mp hc with hc | hc
    · exact .inl (awaitsAnswer_phase hc)
    · exact .inr (by simpa using hc)
  · split
    · next hc => exact failAttempt_steady v w _ b (by simp_all)
    · exact .refl w b

theorem restartSnapshot_steady (w : View) (b : Blocks) (hp : b.cu.phase = .receiving) :
    Steady w b (restartSnapshot b) := by
  refine ⟨⟨id, id, id⟩, fun h => ?_⟩
  have ht := h.fit.timers
  exact Lane.Fit.ok_of_phase (h.fit.samePhase (u := { b.lane.cu with snapshotTimer := some Config.exchangeMs }) rfl rfl
    ⟨ht.answer, ht.defer, fun _ => hp, ht.retry⟩) (hp.trans_ne (by decide))

end Sys2Proof.Machine
end

section
/-! The invariant of the replica (R36, R38, R40, R43, R44): its tables as ordered lists without repetition, one lemma per
operation on a table, the application of every state frame (R42), and the records placed in a snapshot (R71). -/

namespace Sys2Proof.Machine

/-! ### The predicate -/

theorem rising_iff (xs : List Nat) : rising xs = true ↔ xs.Pairwise (· < ·) := by
  induction xs with
  | nil => simp [rising]
  | cons x xs ih =>
    cases xs with
    | nil => simp [rising]
    | cons y ys =>
      simp only [rising, Bool.and_eq_true, decide_eq_true_eq, ih, List.pairwise_cons, List.forall_mem_cons]
      constructor
      · rintro ⟨hxy, hy, hys⟩
        exact ⟨⟨hxy, fun z hz => hxy.trans (hy z hz)⟩, hy, hys⟩
      · rintro ⟨⟨hxy, _⟩, hrest⟩
        exact ⟨hxy, hrest⟩

theorem targetsDistinct_iff (hs : List HoldEntry) : targetsDistinct hs = true ↔ (hs.map HoldEntry.target).Nodup := by
  induction hs with
  | nil => simp [targetsDistinct]
  | cons h hs ih => simp [targetsDistinct, ih, List.nodup_cons]

/-- `Replica.sound`, table by table. -/
structure Replica.Sound (r : Replica) : Prop where
  lotsBound : r.lots.length ≤ Config.maxLots
  lots : (r.lots.map LotRec.lot).Pairwise (· < ·)
  holdsBound : r.holds.length ≤ Config.maxHolds
  holds : (r.holds.map HoldEntry.target).Nodup
  kitsBound : r.kits.length ≤ Config.maxKits
  kits : (r.kits.map KitRec.kit).Pairwise (· < ·)
  ringBound : r.ring.length ≤ Config.maxShipped

theorem Replica.sound_iff (r : Replica) : r.sound = true ↔ r.Sound := by
  simp only [Replica.sound, Bool.and_eq_true, decide_eq_true_eq, rising_iff, targetsDistinct_iff]
  constructor
  · rintro ⟨⟨⟨⟨⟨⟨h1, h2⟩, h3⟩, h4⟩, h5⟩, h6⟩, h7⟩
    exact ⟨h1, h2, h3, h4, h5, h6, h7⟩
  · rintro ⟨h1, h2, h3, h4, h5, h6, h7⟩
    exact ⟨⟨⟨⟨⟨⟨h1, h2⟩, h3⟩, h4⟩, h5⟩, h6⟩, h7⟩

theorem Replica.empty_sound : Replica.empty.Sound :=
  ⟨Nat.zero_le _, .nil, Nat.zero_le _, List.nodup_nil, Nat.zero_le _, .nil, Nat.zero_le _⟩

/-! ### The tables -/

/-- Lots changed in other fields than their IDs. -/
theorem Replica.Sound.mapLots {r : Replica} (h : r.Sound) (f : LotRec → LotRec) (hf : ∀ l, (f l).lot = l.lot) :
    Replica.Sound { r with lots := r.lots.map f } := by
  refine ⟨by simpa using h.lotsBound, ?_, h.holdsBound, h.holds, h.kitsBound, h.kits, h.ringBound⟩
  simpa [List.map_map, Function.comp_def, hf] using h.lots

/-- Kits changed in other fields than their IDs. -/
theorem Replica.Sound.mapKits {r : Replica} (h : r.Sound) (f : KitRec → KitRec) (hf : ∀ k, (f k).kit = k.kit) :
    Replica.Sound { r with kits := r.kits.map f } := by
  refine ⟨h.lotsBound, h.lots, h.holdsBound, h.holds, by simpa using h.kitsBound, ?_, h.ringBound⟩
  simpa [List.map_map, Function.comp_def, hf] using h.kits

theorem Replica.Sound.updateLot {r : Replica} (h : r.Sound) (id : Nat) (f : LotRec → LotRec)
    (hf : ∀ l, (f l).lot = l.lot) : (r.updateLot id f).Sound :=
  h.mapLots _ fun l => by split; exacts [hf l, rfl]

theorem Replica.Sound.updateKit {r : Replica} (h : r.Sound) (id : Nat) (f : KitRec → KitRec)
    (hf : ∀ k, (f k).kit = k.kit) : (r.updateKit id f).Sound :=
  h.mapKits _ fun k => by split; exacts [hf k, rfl]

theorem Replica.Sound.removeLot {r : Replica} (h : r.Sound) (id : Nat) : (r.removeLot id).Sound :=
  ⟨List.filter_sublist.length_le.trans h.lotsBound, h.lots.sublist (List.filter_sublist.map _), h.holdsBound, h.holds,
    h.kitsBound, h.kits, h.ringBound⟩

/-- A lot or kit added by ascending ID has the IDs of the others and its own. -/
theorem mem_insertLot (l x : LotRec) (ls : List LotRec) : x ∈ insertLot l ls ↔ x = l ∨ x ∈ ls := by
  induction ls with
  | nil => simp [insertLot]
  | cons y ys ih =>
    unfold insertLot
    split <;> simp_all [or_left_comm]

theorem mem_insertKit (k x : KitRec) (ks : List KitRec) : x ∈ insertKit k ks ↔ x = k ∨ x ∈ ks := by
  induction ks with
  | nil => simp [insertKit]
  | cons y ys ih =>
    unfold insertKit
    split <;> simp_all [or_left_comm]

theorem insertLot_length (l : LotRec) (ls : List LotRec) : (insertLot l ls).length = ls.length + 1 := by
  induction ls with
  | nil => rfl
  | cons y ys ih =>
    unfold insertLot
    split <;> simp_all

theorem insertKit_length (k : KitRec) (ks : List KitRec) : (insertKit k ks).length = ks.length + 1 := by
  induction ks with
  | nil => rfl
  | cons y ys ih =>
    unfold insertKit
    split <;> simp_all

/-- A lot of a free ID keeps the IDs rising. -/
theorem insertLot_rising (l : LotRec) (ls : List LotRec) (h : (ls.map LotRec.lot).Pairwise (· < ·))
    (free : ∀ x ∈ ls, x.lot ≠ l.lot) : ((insertLot l ls).map LotRec.lot).Pairwise (· < ·) := by
  rw [List.pairwise_map] at h ⊢
  induction ls with
  | nil => exact List.pairwise_singleton _ _
  | cons y ys ih =>
    obtain ⟨hy, hys⟩ := List.pairwise_cons.mp h
    have hne : y.lot ≠ l.lot := free y List.mem_cons_self
    unfold insertLot
    split
    · next hlt =>
      refine List.pairwise_cons.mpr ⟨fun x hx => ?_, h⟩
      rcases List.mem_cons.mp hx with rfl | hx
      · exact hlt
      · exact hlt.trans (hy x hx)
    · next hge =>
      refine List.pairwise_cons.mpr ⟨fun x hx => ?_, ih hys fun x hx => free x (List.mem_cons_of_mem _ hx)⟩
      rcases (mem_insertLot l x ys).mp hx with rfl | hx
      · omega
      · exact hy x hx

/-- A kit of a free ID keeps the IDs rising. -/
theorem insertKit_rising (k : KitRec) (ks : List KitRec) (h : (ks.map KitRec.kit).Pairwise (· < ·))
    (free : ∀ x ∈ ks, x.kit ≠ k.kit) : ((insertKit k ks).map KitRec.kit).Pairwise (· < ·) := by
  rw [List.pairwise_map] at h ⊢
  induction ks with
  | nil => exact List.pairwise_singleton _ _
  | cons y ys ih =>
    obtain ⟨hy, hys⟩ := List.pairwise_cons.mp h
    have hne : y.kit ≠ k.kit := free y List.mem_cons_self
    unfold insertKit
    split
    · next hlt =>
      refine List.pairwise_cons.mpr ⟨fun x hx => ?_, h⟩
      rcases List.mem_cons.mp hx with rfl | hx
      · exact hlt
      · exact hlt.trans (hy x hx)
    · next hge =>
      refine List.pairwise_cons.mpr ⟨fun x hx => ?_, ih hys fun x hx => free x (List.mem_cons_of_mem _ hx)⟩
      rcases (mem_insertKit k x ys).mp hx with rfl | hx
      · omega
      · exact hy x hx

/-- A lot of a free ID added while the Lot Table has room (R48). -/
theorem Replica.Sound.insertLot {r : Replica} (h : r.Sound) (l : LotRec) (free : (r.lot? l.lot).isNone = true)
    (room : r.lots.length < Config.maxLots) : Replica.Sound { r with lots := insertLot l r.lots } := by
  have hfree : ∀ x ∈ r.lots, x.lot ≠ l.lot := by simpa [Replica.lot?, List.find?_eq_none] using free
  exact ⟨by rw [insertLot_length]; exact room, insertLot_rising l r.lots h.lots hfree, h.holdsBound, h.holds,
    h.kitsBound, h.kits, h.ringBound⟩

/-- A kit of a free ID added while the Kit Table has room (R59). -/
theorem Replica.Sound.insertKit {r : Replica} (h : r.Sound) (k : KitRec) (free : (r.kit? k.kit).isNone = true)
    (room : r.kits.length < Config.maxKits) : Replica.Sound { r with kits := insertKit k r.kits } := by
  have hfree : ∀ x ∈ r.kits, x.kit ≠ k.kit := by simpa [Replica.kit?, List.find?_eq_none] using free
  exact ⟨h.lotsBound, h.lots, h.holdsBound, h.holds, by rw [insertKit_length]; exact room,
    insertKit_rising k r.kits h.kits hfree, h.ringBound⟩

theorem Replica.Sound.removeKits {r : Replica} (h : r.Sound) (p : KitRec → Bool) :
    Replica.Sound { r with kits := r.kits.filter p } :=
  ⟨h.lotsBound, h.lots, h.holdsBound, h.holds, List.filter_sublist.length_le.trans h.kitsBound,
    h.kits.sublist (List.filter_sublist.map _), h.ringBound⟩

/-- A hold on a new target appended while the Hold List has room (R53). -/
theorem Replica.Sound.appendHold {r : Replica} (h : r.Sound) (e : HoldEntry) (fresh : r.heldAs e.target = false)
    (room : r.holds.length < Config.maxHolds) : Replica.Sound { r with holds := r.holds ++ [e] } := by
  have hnew : ∀ x ∈ r.holds, x.target ≠ e.target := by simpa [Replica.heldAs] using fresh
  refine ⟨h.lotsBound, h.lots, by simpa using Nat.succ_le_of_lt room, ?_, h.kitsBound, h.kits, h.ringBound⟩
  rw [List.map_append, List.nodup_append]
  refine ⟨h.holds, List.nodup_singleton _, fun a ha b hb => ?_⟩
  obtain ⟨x, hx, rfl⟩ := List.mem_map.mp ha
  rw [List.mem_singleton.mp hb]
  exact hnew x hx

theorem Replica.Sound.removeHolds {r : Replica} (h : r.Sound) (p : HoldEntry → Bool) :
    Replica.Sound { r with holds := r.holds.filter p } :=
  ⟨h.lotsBound, h.lots, List.filter_sublist.length_le.trans h.holdsBound, h.holds.sublist (List.filter_sublist.map _),
    h.kitsBound, h.kits, h.ringBound⟩

theorem pushRing_length (id : Nat) (ring : List Nat) (h : ring.length ≤ Config.maxShipped) :
    (pushRing id ring).length ≤ Config.maxShipped := by
  unfold pushRing
  split
  · next room => simpa using Nat.succ_le_of_lt room
  · simp only [List.length_append, List.length_drop, List.length_singleton]
    simp only [Config.maxShipped] at *
    omega

theorem Replica.Sound.setRing {r : Replica} (h : r.Sound) (ids : List Nat) (hids : ids.length ≤ Config.maxShipped) :
    Replica.Sound { r with ring := ids } :=
  ⟨h.lotsBound, h.lots, h.holdsBound, h.holds, h.kitsBound, h.kits, hids⟩

theorem Replica.Sound.setStep {r : Replica} (h : r.Sound) (lot k : Nat) (f : Nat → StepState) :
    (r.setStep lot k f).Sound := by
  unfold Replica.setStep
  split
  · exact h.updateLot lot _ fun _ => rfl
  · exact h

/-! ### The application of a state frame (R42, R48 to R60) -/

theorem passOn_lot (sender k pass : Nat) (l : LotRec) : (passOn sender k pass l).lot = l.lot := by
  unfold passOn
  split <;> rfl

theorem Replica.Sound.applyTally {r : Replica} (h : r.Sound) (sender lot k kit e p f l i : Nat) :
    (applyTally r sender lot k kit e p f l i).Sound := by
  have hkit := h.updateKit kit (raiseCount i) fun _ => rfl
  unfold Machine.applyTally
  simp only
  split
  · exact hkit.removeLot lot
  · exact hkit.updateLot lot _ fun l => passOn_lot _ _ _ _

theorem orphanLot_lot (s sender : Nat) (l : LotRec) : (orphanLot s sender l).lot = l.lot := by
  unfold orphanLot
  split <;> rfl

theorem orphanKit_kit (s : Nat) (k : KitRec) : (orphanKit s k).kit = k.kit := by
  unfold orphanKit
  split <;> rfl

/-- A HOLD that is appended finds its target free and room in the Hold List (R53). -/
theorem holdCase_appended {r : Replica} {sender : Nat} {sn : BitVec 8} {t : HoldTarget}
    (h : holdCase r sender sn t = .appended) : r.heldAs t = false ∧ r.holds.length < Config.maxHolds := by
  unfold holdCase at h
  split at h
  · cases h
  · next hheld =>
    split at h
    · cases h
    · split at h
      · cases h
      · split at h
        · cases h
        · next hfull => exact ⟨by simpa using hheld, by omega⟩

/-- The effect of a state frame keeps a replica sound where the frame takes effect. -/
theorem effectOf_sound {r : Replica} (h : r.Sound) {a : Level} {sender : Nat} {body : FrameBody}
    (he : takesEffect r a sender body = true) : (effectOf r sender body).Sound := by
  cases body with
  | hold sn t l rs =>
    obtain ⟨hfree, hroom⟩ := holdCase_appended (by simpa [takesEffect] using he)
    exact h.appendHold ⟨sender, sn, t, l, rs⟩ hfree hroom
  | lift o sn => exact h.removeHolds _
  | ship lot q => exact (h.removeLot lot).setRing _ (pushRing_length lot r.ring h.ringBound)
  | stepStart lot k kit => exact h.setStep ..
  | stepTally lot k kit e p f l i => exact h.applyTally ..
  | orphan s => exact (h.mapLots _ (orphanLot_lot s sender)).mapKits _ (orphanKit_kit s)
  | cede lot k => exact h.setStep ..
  | bid lot k => exact h.setStep ..
  | resume lot => exact h.updateLot lot _ fun _ => rfl
  | withdraw lot => exact h.removeLot lot
  | post p =>
    simp only [takesEffect, postable, Bool.and_eq_true, decide_eq_true_eq] at he
    obtain ⟨⟨⟨⟨⟨hfree, hroom⟩, _⟩, _⟩, _⟩, _⟩ := he
    exact h.insertLot (newLot sender p) hfree hroom
  | kitAdd k f l =>
    simp only [takesEffect, kitAddable, Bool.and_eq_true, decide_eq_true_eq] at he
    obtain ⟨⟨⟨⟨_, hfree⟩, hroom⟩, _⟩, _⟩ := he
    exact h.insertKit ⟨k, f, .shelf, 0, l⟩ hfree hroom
  | kitTake k => exact h.updateKit k _ fun _ => rfl
  | kitGive k => exact h.updateKit k _ fun _ => rfl
  | kitFound k => exact h.updateKit k _ fun _ => rfl
  | kitServiced k => exact h.updateKit k _ fun _ => rfl
  | kitRetire k => exact h.removeKits _
  | _ => exact h

theorem applyBody_sound {r : Replica} (h : r.Sound) (a : Level) (sender : Nat) (body : FrameBody) :
    (applyBody r a sender body).Sound := by
  unfold applyBody testHistory
  split
  · next he => exact (effectOf_sound h he).mapLots _ fun _ => rfl
  · exact h.mapLots _ fun _ => rfl

/-! ### The records of a snapshot (R71) -/

theorem placeRecord_sound {a a' : Assembly} {i : Nat} {x : SnapRecord} (hp : placeRecord a i x = some a')
    (h : a.rep.Sound) : a'.rep.Sound := by
  unfold placeRecord at hp
  split at hp
  case isFalse => cases hp
  cases x with
  | lot head =>
    simp only [placeHead] at hp
    split at hp <;> cases hp
    exact h
  | plan states =>
    simp only [placePlan] at hp
    split at hp
    · split at hp
      · next hc =>
        cases hp
        simp only [Bool.and_eq_true, decide_eq_true_eq] at hc
        obtain ⟨⟨_, hfree⟩, hroom⟩ := hc
        exact h.insertLot _ hfree hroom
      · cases hp
    · cases hp
  | hold e =>
    simp only [placeHold] at hp
    split at hp
    · next hc =>
      cases hp
      simp only [Bool.and_eq_true, decide_eq_true_eq, Bool.not_eq_true'] at hc
      exact h.appendHold e hc.1 hc.2
    · cases hp
  | kit k =>
    simp only [placeKit] at hp
    split at hp
    · next hc =>
      cases hp
      simp only [Bool.and_eq_true, decide_eq_true_eq] at hc
      exact h.insertKit k hc.1 hc.2
    · cases hp
  | ring ids =>
    simp only [placeRing] at hp
    split at hp
    · next hc =>
      cases hp
      exact h.setRing ids hc
    · cases hp

end Sys2Proof.Machine
end

section
/-! The rest of a catch-up (R71 to R74), the signal of an application (R39), the hearing of a peer (R24, R28), and the
hearing of a frame by the part (R7): what each keeps of the stores, of the replica and of the Dispatch Queue. -/

namespace Sys2Proof.Machine

/-! ### Receiving a snapshot (R71, R72) -/

theorem copySound_receiving {c : SnapshotCopy} {a : Assembly} (h : receivingCopy c = some a)
    (hc : copySound c = true) : a.rep.sound = true := by
  cases c with
  | receiving x =>
    cases h
    exact hc
  | _ => cases h

/-- An entry placed: the copy goes on, and the next index is expected (R71). -/
theorem takeEntry_steady (w : View) (i : Nat) (a : Assembly) (b : Blocks) (hp : b.cu.phase = .receiving)
    (ha : copySound b.cu.copy = true → a.rep.sound = true) :
    Steady w b { b with cu := { b.cu with copy := .receiving a, expected := i } } := by
  refine ⟨⟨id, ha, id⟩, fun h => ?_⟩
  have ht := h.fit.timers
  exact Lane.Fit.ok_of_phase (h.fit.samePhase (u := { b.lane.cu with expected := i }) rfl rfl
    ⟨ht.answer, ht.defer, ht.snapshot, ht.retry⟩) (hp.trans_ne (by decide))

theorem entryHeard_steady (v w : View) (i : Nat) (r : Option SnapRecord) (b : Blocks) :
    Steady w b (entryHeard v i r b) := by
  unfold entryHeard
  split
  · next hc =>
    have hp : b.cu.phase = .receiving := by simpa using hc
    refine (restartSnapshot_steady w b hp).trans ?_
    have hfail : ∀ c, Steady w (restartSnapshot b) (failAttempt v c (restartSnapshot b)) := fun c =>
      failAttempt_steady v w c _ (hp.trans_ne (by decide))
    simp only
    split
    · split
      · next a ha =>
        refine takeEntry_steady w (i + 1) a _ hp fun hcopy => ?_
        split at ha
        · next hcp =>
          exact (Replica.sound_iff _).mpr (placeRecord_sound ha
            ((Replica.sound_iff _).mp (copySound_receiving hcp hcopy)))
        · cases ha
      · exact hfail .badEntry
    · exact hfail .gap
  · exact .refl w b

/-- A state frame buffered that is no own BID (R72). -/
theorem bufferFrame_steady (v w : View) (f : HeardFrame) (b : Blocks) (hp : b.cu.phase = .receiving)
    (hf : f.own = true → f.body.isBid = false) : Steady w b (bufferFrame v f b) := by
  unfold bufferFrame
  split
  · next room =>
    refine ⟨⟨fun ⟨hlc, hjunk, _, hrest⟩ => ⟨hlc, hjunk, by simpa using Nat.succ_le_of_lt room, hrest⟩, id, id⟩,
      fun h => ?_⟩
    have hfit := h.fit
    exact Lane.Fit.ok_of_phase (l := { b.lane with cu := { b.lane.cu with buffer := b.cu.buffer ++ [f] } })
      ⟨hfit.distinct, hfit.bid, fun g hg => (List.mem_append.mp hg).elim (hfit.buffered g)
        fun hg => List.mem_singleton.mp hg ▸ hf, hfit.joining, hfit.listening,
        ⟨hfit.timers.answer, hfit.timers.defer, hfit.timers.snapshot, hfit.timers.retry⟩⟩ (hp.trans_ne (by decide))
  · exact failAttempt_steady v w _ b (hp.trans_ne (by decide))

theorem referenceBeacon_steady (v w : View) (c : Beacon) (b : Blocks) : Steady w b (referenceBeacon v c b) := by
  unfold referenceBeacon
  split
  · next hc =>
    refine failAttempt_steady v w _ b fun hp => ?_
    simp [hp, attemptRuns] at hc
  · exact .refl w b

/-! ### The signal (R39) -/

theorem replicaNotices_quiet (v : View) (sig : Signal) (b : Blocks) : Quiet b (replicaNotices v sig b) := by
  unfold replicaNotices
  split
  · exact raiseIf_quiet _ _ b
  · exact raiseIf_quiet _ _ b
  · split
    · exact (raiseIf_quiet _ _ b).trans (raiseIf_quiet _ _ _)
    · exact .refl b
  · exact .refl b

theorem markEntry_key (v : View) (sig : Signal) (e : QueueEntry) : (markEntry v sig e).key = e.key := by
  unfold markEntry
  split
  · rfl
  · split <;> rfl

theorem markEntries_quiet (v : View) (sig : Signal) (b : Blocks) : Quiet b (markEntries v sig b) :=
  (mapQueue_quiet _ (markEntry_key v sig) b).trans (.ite (haltStep_quiet _) (.refl _))

theorem unmarkSpent_quiet (v : View) (b : Blocks) : Quiet b (unmarkSpent v b) :=
  mapQueue_quiet _ (fun e => by unfold unmarkIfShown; split <;> rfl) b

/-- The entry of a claim won joins the queue as its last (R86). -/
def queueWon (lot k : Nat) (b : Blocks) : Blocks :=
  { b with du := { b.du with queue := b.du.queue ++ [⟨lot, k, .won, none, none, none, false, none, false⟩] } }

theorem queueWon_stepsOnly (lot k : Nat) (b : Blocks) : StepsOnly b (queueWon lot k b) (b.steps ++ [(lot, k)]) := by
  refine ⟨⟨id, id, id⟩, ?_⟩
  simp only [Blocks.lane, Blocks.steps, queueWon, List.map_append, List.map_cons, List.map_nil, QueueEntry.key]

/-- A claim won adds its step to the queue, or, where the replica shows no such step, nothing (R86). -/
theorem claimWon_stepsOnly (v : View) (lot k : Nat) (b : Blocks) :
    StepsOnly b (claimWon v lot k b) (b.steps ++ [(lot, k)]) ∨ claimWon v lot k b = b := by
  unfold claimWon
  split
  · next s _ =>
    exact .inl (((queueWon_stepsOnly lot k b).quiet (raise_quiet (.claimWon lot k (tier v b s.spec)) _)).quiet
      (.ite (setCede_quiet .leave (by decide) lot k _) (.refl _)))
  · exact .inr rfl

theorem claimWon_keeps (v : View) (lot k : Nat) (b : Blocks) : Keeps b (claimWon v lot k b) :=
  (claimWon_stepsOnly v lot k b).elim StepsOnly.sound fun h => by rw [h]; exact .refl b

/-- A claim won of a step that is not in the queue, with no own frame in transmission (R86, R87). -/
theorem claimWon_fit (v : View) (lot k : Nat) (b : Blocks) (hf : b.lane.Fit) (fresh : (lot, k) ∉ b.steps)
    (htx : b.lc.tx = none) : (claimWon v lot k b).lane.Fit := by
  rcases claimWon_stepsOnly v lot k b with h | h
  · rw [h.lane]
    refine ⟨?_, fun x _ _ hx _ => by simp [Blocks.lane, htx] at hx, hf.buffered, hf.joining, hf.listening, hf.timers⟩
    refine List.nodup_append.mpr ⟨hf.distinct, List.nodup_singleton _, fun a ha c hc => ?_⟩
    rintro rfl
    exact fresh (List.mem_singleton.mp hc ▸ ha)
  · rwa [h]

theorem startCount_quiet (v : View) (lot k kit : Nat) (b : Blocks) : Quiet b (startCount v lot k kit b) := by
  unfold startCount
  split
  · exact ⟨⟨id, id, id⟩, rfl⟩
  · exact .refl b

theorem stepStarted_quiet (v : View) (lot k kit : Nat) (b : Blocks) : Quiet b (stepStarted v lot k kit b) :=
  ((updateEntry_quiet lot k (fun e => { e with phase := .running }) (fun _ => rfl) b).trans
    (startCount_quiet v lot k kit _)).trans (abandonLeave_quiet _ _)

theorem ownTally_quiet (v : View) (sig : Signal) (lot k kit e p f l i : Nat) (b : Blocks) :
    Quiet b (ownTally v sig lot k kit e p f l i b) := by
  unfold ownTally
  refine .ite (raise_quiet _ b) ?_
  split
  · exact refuseTally_quiet v _ _ _ _ b
  · exact .refl b

theorem raiseAssigned_quiet (s : Nat) : ∀ (ls : List LotRec) (b : Blocks), Quiet b (raiseAssigned s ls b) :=
  Quiet.fold (fun _ => rfl) (fun _ _ _ => rfl) fun _ b => raiseIf_quiet _ _ b

/-- An own BID that is heard with effect wins its claim; the Dispatch Unit does no more than report on the other frames
(R79, R86, R92, R95, R97, R98, R161, R162). -/
theorem dispatchOutcome_cases (v : View) (sig : Signal) (b : Blocks) :
    (∃ lot k, sig.body = .bid lot k ∧ sig.own = true ∧ sig.effect = true ∧
      dispatchOutcome v sig b = claimWon v lot k b) ∨ Quiet b (dispatchOutcome v sig b) := by
  unfold dispatchOutcome
  cases sig.body with
  | bid lot k =>
    simp only
    split
    · next hc => exact .inl ⟨lot, k, rfl, by simp_all, by simp_all, rfl⟩
    · exact .inr (.refl b)
  | post p => exact .inr (.ite (raise_quiet _ b) (.refl b))
  | stepStart lot k kit => exact .inr (.ite (stepStarted_quiet v lot k kit b) (.refl b))
  | stepTally lot k kit e p f l i => exact .inr (.ite (ownTally_quiet v sig lot k kit e p f l i b) (.refl b))
  | cede lot k =>
    exact .inr (.ite (updateEntry_quiet lot k (fun e => { e with cede := none }) (fun _ => rfl) b) (.refl b))
  | withdraw lot => exact .inr (.ite (raiseIf_quiet _ _ b) (raiseIf_quiet _ _ b))
  | resume lot => exact .inr (.ite (raise_quiet _ b) (.refl b))
  | orphan s => exact .inr (.ite (raiseAssigned_quiet s _ b) (.refl b))
  | _ => exact .inr (.refl b)

theorem dispatchOutcome_keeps (v : View) (sig : Signal) (b : Blocks) : Keeps b (dispatchOutcome v sig b) := by
  rcases dispatchOutcome_cases v sig b with ⟨lot, k, _, _, _, h⟩ | h
  · rw [h]
    exact claimWon_keeps v lot k b
  · exact h.sound

/-- The frame of a signal, if it is an own BID with effect, names a step that is not in the queue. -/
def FreshBid (sig : Signal) (b : Blocks) : Prop :=
  ∀ lot k, sig.body = .bid lot k → sig.own = true → (lot, k) ∉ b.steps

theorem dispatchOutcome_fit (v : View) (sig : Signal) (b : Blocks) (hf : b.lane.Fit) (fresh : FreshBid sig b)
    (htx : b.lc.tx = none) : (dispatchOutcome v sig b).lane.Fit := by
  rcases dispatchOutcome_cases v sig b with ⟨lot, k, hbody, hown, _, h⟩ | h
  · rw [h]
    exact claimWon_fit v lot k b hf (fresh lot k hbody hown) htx
  · exact h.lane ▸ hf

theorem reconcileOn_keeps (v : View) (sig : Signal) (b : Blocks) : Keeps b (reconcileOn v sig b) :=
  .ite (reconcile_stepsOnly v false b).sound (.refl b)

/-- After the reconcile of a signal the queue is this station's, but for a member that an ORPHAN names (R88, R89). -/
theorem reconcileOn_ok (v : View) (sig : Signal) (b : Blocks) (hf : b.lane.Fit) :
    (reconcileOn v sig b).lane.Fit ∧ (QueueOk v (reconcileOn v sig b).lane ∨
      isMember (reconcileOn v sig b).station = true ∧ orphansMe v sig = true) := by
  unfold reconcileOn
  split
  · have h := reconcile_ok v false b hf
    exact ⟨h.fit, .inl h⟩
  · next hc =>
    refine ⟨hf, ?_⟩
    cases hm : isMember b.station
    · exact .inl (hf.ok hm)
    · have hw := isWorking_of_isMember hm
      refine .inr ⟨rfl, ?_⟩
      simpa [hm, hw] using hc

/-- The Yield Window and the trip counter changed (R142, R143). -/
theorem setWindow_quiet (xs : List UnitResult) (n : Nat) (b : Blocks) :
    Quiet b { b with iw := { b.iw with window := xs, trip := n } } := ⟨⟨id, id, id⟩, rfl⟩

theorem watchLift_quiet (v : View) (h : HoldEntry) (b : Blocks) : Quiet b (watchLift v h b) := by
  have hwindow : Quiet b (if coversRunningHead v h b then { b with iw := { b.iw with window := [] } } else b) :=
    .ite (setWindow_quiet [] b.iw.trip b) (.refl b)
  refine hwindow.trans ?_
  unfold watchLift
  generalize (if coversRunningHead v h b then { b with iw := { b.iw with window := [] } } else b) = d
  simp only
  split
  · exact .ite (setWindow_quiet d.iw.window 0 d) (.refl d)
  · exact .refl d

theorem watchOutcome_quiet (v : View) (sig : Signal) (b : Blocks) : Quiet b (watchOutcome v sig b) := by
  unfold watchOutcome
  split
  · split
    · exact .ite (watchLift_quiet v _ b) (.refl b)
    · exact .refl b
  · exact .refl b

theorem presenceOutcome_steady (v : View) (sig : Signal) (b : Blocks) : Steady v b (presenceOutcome v sig b) := by
  unfold presenceOutcome
  split
  · exact .ite (unpark_steady v b) (.refl v b)
  · exact .ite (divergeIfMember_steady v v _ b) (.refl v b)
  · exact .ite (divergeIfMember_steady v v _ b) (.refl v b)
  · exact .refl v b

/-- A member that an ORPHAN names leaves for JOINING (R29). -/
theorem presenceOutcome_orphaned (v : View) (sig : Signal) (b : Blocks) (hf : b.lane.Fit)
    (hm : isMember b.station = true) (ho : orphansMe v sig = true) : QueueOk v (presenceOutcome v sig b).lane := by
  have hbody : sig.body = .orphan v.id := by simpa [orphansMe] using ho
  have hdiverge : presenceOutcome v sig b = diverge v .orphaned b := by
    simp [presenceOutcome, hbody, divergeIfMember, hm]
  rw [hdiverge]
  exact diverge_ok v v _ b hf hm

theorem kitOutcome_quiet (sig : Signal) (sub : KitSubkind) (k : Nat) (b : Blocks) : Quiet b (kitOutcome sig sub k b) :=
  .ite (raise_quiet _ b) (.refl b)

theorem takeOutcome_quiet (v : View) (sig : Signal) (k : Nat) (b : Blocks) : Quiet b (takeOutcome v sig k b) := by
  unfold takeOutcome
  split
  · exact .ite (needFitting_quiet _ _ b) (tryNext_quiet v _ _ b)
  · exact .ite (giveBack_quiet k b) (.refl b)

theorem handlerOutcome_quiet (v : View) (sig : Signal) (b : Blocks) : Quiet b (handlerOutcome v sig b) := by
  unfold handlerOutcome
  split
  case h_5 => exact .ite (takeOutcome_quiet v sig _ b) (.refl b)
  case h_6 => exact .ite (dropGive_quiet _ b) (.refl b)
  case h_7 => exact .refl b
  all_goals exact kitOutcome_quiet sig _ _ b

theorem raiseHeld_quiet (v : View) (h : HoldEntry) : ∀ (es : List QueueEntry) (b : Blocks), Quiet b (raiseHeld v h es b) :=
  Quiet.fold (fun _ => rfl) (fun _ _ _ => rfl) fun _ b => raiseIf_quiet _ _ b

theorem hostHoldNotice_quiet (h : HoldEntry) (b : Blocks) (c : HoldCase) : Quiet b (hostHoldNotice h b c) := by
  cases c
  case shipped => exact .refl b
  all_goals exact raise_quiet _ b

theorem autoHoldNotice_quiet (h : HoldEntry) (b : Blocks) (c : HoldCase) : Quiet b (autoHoldNotice h b c) := by
  cases c
  case shipped => exact .refl b
  case sameTarget => exact .refl b
  all_goals exact raise_quiet _ b

theorem cellOutcome_quiet (v : View) (sig : Signal) (b : Blocks) : Quiet b (cellOutcome v sig b) := by
  unfold cellOutcome
  split
  · exact (Quiet.ite (.ite (hostHoldNotice_quiet _ b _) (autoHoldNotice_quiet _ b _)) (.refl b)).trans
      (.ite (raiseHeld_quiet v _ _ _) (.refl _))
  · split
    · exact .ite (.ite (raise_quiet _ b) (raiseIf_quiet _ _ b)) (raiseIf_quiet _ _ b)
    · exact raiseIf_quiet _ _ b
  · exact .refl b

/-- What of a signal comes behind the Dispatch Unit's reconcile, but for the Presence Unit. -/
theorem signalRest_quiet (v : View) (sig : Signal) (b : Blocks) :
    Quiet b (markDue (releaseChecks v (cellOutcome v sig (handlerOutcome v sig b)))) :=
  (((handlerOutcome_quiet v sig b).trans (cellOutcome_quiet v sig _)).trans (releaseChecks_quiet v _)).trans
    (markDue_quiet _)

theorem signalBlocks_keeps (v : View) (sig : Signal) (b : Blocks) : Keeps b (signalBlocks v sig b) :=
  ((((((replicaNotices_quiet v sig b).trans (markEntries_quiet v sig _)).sound.trans
    (dispatchOutcome_keeps v sig _)).trans (reconcileOn_keeps v sig _)).trans
    ((enterHead_quiet _).trans (watchOutcome_quiet v sig _)).sound).trans (presenceOutcome_steady v sig _).sound).trans
    (signalRest_quiet v sig _).sound

/-- A signal brings the Dispatch Queue into line with the replica after the application, whatever the replica was
(R88, R89). -/
theorem signalBlocks_ok (v : View) (sig : Signal) (b : Blocks) (hf : b.lane.Fit) (fresh : FreshBid sig b)
    (htx : b.lc.tx = none) : QueueOk v (signalBlocks v sig b).lane := by
  have hmark := (replicaNotices_quiet v sig b).trans (markEntries_quiet v sig _)
  have hdispatch := dispatchOutcome_fit v sig _ (hmark.lane ▸ hf)
    (fun lot k hb ho => hmark.steps ▸ fresh lot k hb ho) (hmark.tx.trans htx)
  obtain ⟨hfit, hreconciled⟩ := reconcileOn_ok v sig _ hdispatch
  have hwatch := (enterHead_quiet (reconcileOn v sig (dispatchOutcome v sig (markEntries v sig
    (replicaNotices v sig b))))).trans (watchOutcome_quiet v sig _)
  refine (signalRest_quiet v sig _).steady.queue ?_
  rcases hreconciled with hok | ⟨hm, ho⟩
  · exact (presenceOutcome_steady v sig _).queue (hwatch.steady.queue hok)
  · exact presenceOutcome_orphaned v sig _ (hwatch.lane ▸ hfit) (hwatch.station ▸ hm) ho

/-- In JOINING a signal that is no own BID's leaves the lane alone: there is no reconcile, and the Presence Unit moves
members only. -/
theorem signalBlocks_quiet (v : View) (sig : Signal) (b : Blocks) (hs : b.station = .joining)
    (hb : sig.own = true → sig.body.isBid = false) : Quiet b (signalBlocks v sig b) := by
  have hmark := (replicaNotices_quiet v sig b).trans (markEntries_quiet v sig _)
  have hdispatch : Quiet b (dispatchOutcome v sig (markEntries v sig (replicaNotices v sig b))) := by
    rcases dispatchOutcome_cases v sig (markEntries v sig (replicaNotices v sig b)) with ⟨lot, k, hbody, ho, _⟩ | h
    · have := hb ho
      rw [hbody] at this
      cases this
    · exact hmark.trans h
  have hreconcile : Quiet b (reconcileOn v sig (dispatchOutcome v sig (markEntries v sig (replicaNotices v sig b)))) := by
    have hstation := hdispatch.station.trans hs
    unfold reconcileOn
    rw [hstation]
    exact hdispatch
  have hwatch := hreconcile.trans ((enterHead_quiet _).trans (watchOutcome_quiet v sig _))
  refine Quiet.trans ?_ (signalRest_quiet v sig _)
  have hstation := hwatch.station.trans hs
  have hstays : ∀ c : Blocks, c.station = .joining → presenceOutcome v sig c = c := by
    intro c hc
    unfold presenceOutcome unpark divergeIfMember
    rw [hc]
    split
    · exact ite_self _
    · exact ite_self _
    · exact ite_self _
    · rfl
  rw [hstays _ hstation]
  exact hwatch

/-! ### The hearing of a peer (R22, R24, R28) -/

theorem idConflict_quiet (b : Blocks) : Quiet b (idConflict b) := by
  have hset : Quiet b { b with pu := { b.pu with conflictRaised := true } } := ⟨⟨id, id, id⟩, rfl⟩
  exact .ite (.refl b) (hset.trans (raise_quiet _ _))

theorem setPeers_quiet (ps : List PeerRec) (b : Blocks) : Quiet b { b with pu := { b.pu with peers := ps } } :=
  ⟨⟨id, id, id⟩, rfl⟩

theorem recordPeer_quiet (sender : Nat) (body : FrameBody) (b : Blocks) : Quiet b (recordPeer sender body b) :=
  (setPeers_quiet _ b).trans (raiseIf_quiet _ _ _)

theorem heardListening_steady (v w : View) (b : Blocks) : Steady w b (heardListening v b) := by
  unfold heardListening
  split
  · have h := enterState_enters v .joining { b with pu := { b.pu with listenWait := true } }
    refine ⟨Keeps.trans (b := { b with pu := { b.pu with listenWait := true } }) ⟨id, id, id⟩ h.sound, fun hq => ?_⟩
    rw [h.lane]
    exact Lane.Fit.ok (hq.fit.enter (fun k => absurd rfl k) fun _ => rfl) rfl
  · exact .refl w b

theorem beaconHeard_steady (v w : View) (sender : Nat) (m : Bool) (c : Beacon) (b : Blocks) :
    Steady w b (beaconHeard v sender m c b) := by
  have horphan : Quiet b (if m && !isMember c.state then orphanCheck v b else b) :=
    .ite (orphanCheck_quiet v b) (.refl b)
  refine horphan.steady.trans ?_
  unfold beaconHeard
  generalize (if m && !isMember c.state then orphanCheck v b else b) = d
  simp only
  split
  · next hm =>
    split
    · exact ⟨diverge_keeps v _ d, fun h => diverge_ok v w _ d h.fit hm⟩
    · exact .refl w d
  · exact .refl w d

theorem hearPeer_steady (v w : View) (h : Heard) (b : Blocks) : Steady w b (hearPeer v h b) := by
  unfold hearPeer
  refine .ite (idConflict_quiet b).steady (.ite ?_ (.refl w b))
  refine ((recordPeer_quiet h.sender h.body b).steady.trans (heardListening_steady v w _)).trans ?_
  split
  · exact beaconHeard_steady v w ..
  · exact .refl w _

end Sys2Proof.Machine
end

section
/-! The end of a frame (R5 to R7, R15): what every hearing keeps of the shell of the state, of the replica, of the stores
and of the Dispatch Queue. -/

namespace Sys2Proof.Machine

/-! ### The frame in transmission through the hearing of a peer -/

theorem enterState_tx (v : View) (new : StationState) (b : Blocks) : (enterState v new b).lc.tx = b.lc.tx :=
  congrArg Lane.tx (enterState_enters v new b).lane

theorem failAttempt_tx (v : View) (c : AttemptCause) (b : Blocks) : (failAttempt v c b).lc.tx = b.lc.tx := by
  have hfailed : (attemptFailed v c b).lc.tx = b.lc.tx := congrArg Lane.tx (attemptFailed_lane v c b)
  rw [failAttempt_eq]
  split
  · exact (congrArg Lane.tx (isolate_enters v c _).lane).trans hfailed
  · exact hfailed

theorem startCatchUp_tx (v : View) (b : Blocks) : (startCatchUp v b).lc.tx = b.lc.tx := by
  unfold startCatchUp beginAttempt
  simp only
  split
  · exact (enqueueReq_quiet _ _).tx
  · exact failAttempt_tx ..

theorem diverge_tx (v : View) (c : DivergedCause) (b : Blocks) : (diverge v c b).lc.tx = b.lc.tx :=
  (startCatchUp_tx v _).trans ((abandonLeave_quiet _ _).tx.trans (enterState_tx v .joining b))

theorem hearPeer_tx (v : View) (h : Heard) (b : Blocks) : (hearPeer v h b).lc.tx = b.lc.tx := by
  have hlistening : ∀ c : Blocks, (heardListening v c).lc.tx = c.lc.tx := fun c => by
    unfold heardListening
    split
    · exact enterState_tx ..
    · rfl
  have hbeacon : ∀ sender m x (c : Blocks), (beaconHeard v sender m x c).lc.tx = c.lc.tx := fun sender m x c => by
    have horphan : Quiet c (if m && !isMember x.state then orphanCheck v c else c) :=
      .ite (orphanCheck_quiet v c) (.refl c)
    refine Eq.trans ?_ horphan.tx
    unfold beaconHeard
    generalize (if m && !isMember x.state then orphanCheck v c else c) = d
    simp only
    split
    · split
      · exact diverge_tx ..
      · rfl
    · rfl
  unfold hearPeer
  split
  · exact (idConflict_quiet b).tx
  · split
    · have hrecord := (hlistening (recordPeer h.sender h.body b)).trans (recordPeer_quiet h.sender h.body b).tx
      simp only
      split
      · exact (hbeacon _ _ _ _).trans hrecord
      · exact hrecord
    · rfl

/-! ### States -/

/-- The replica is sound, and the digest is the replica's (R36, R38). -/
def State.FloorOk (s : State) : Prop := s.re.replica.Sound ∧ s.re.digest = s.re.replica.digest

def State.QueueOk (s : State) : Prop := Machine.QueueOk s.view s.blocks.lane

/-- The shell of the state stays, and what its blocks and its replica keep. -/
structure Carries (s t : State) : Prop where
  pending : t.pending = s.pending
  stationId : t.stationId = s.stationId
  config : t.config = s.config
  blocks : Keeps s.blocks t.blocks
  floor : copySound s.blocks.cu.copy = true → s.FloorOk → t.FloorOk

theorem Carries.refl (s : State) : Carries s s := ⟨rfl, rfl, rfl, .refl _, fun _ => id⟩

theorem Carries.trans {s t u : State} (h : Carries s t) (k : Carries t u) : Carries s u :=
  ⟨k.pending.trans h.pending, k.stationId.trans h.stationId, k.config.trans h.config, h.blocks.trans k.blocks,
    fun hc hf => k.floor (h.blocks.copy hc) (h.floor hc hf)⟩

theorem Carries.ite {p : Prop} [Decidable p] {s t u : State} (h : Carries s t) (k : Carries s u) :
    Carries s (if p then t else u) := by
  split
  · exact h
  · exact k

theorem mapBlocks_carries {s : State} {f : View → Blocks → Blocks} (h : Keeps s.blocks (f s.view s.blocks)) :
    Carries s (s.mapBlocks f) := ⟨rfl, rfl, rfl, h, fun _ => id⟩

theorem mapBlocks_queueOk_iff {s : State} {f : View → Blocks → Blocks} :
    (s.mapBlocks f).QueueOk ↔ Machine.QueueOk s.view (f s.view s.blocks).lane := Iff.rfl

/-- The blocks changed by an operation that keeps the Dispatch Queue. -/
theorem mapBlocks_queueOk {s : State} {f : View → Blocks → Blocks} (h : Steady s.view s.blocks (f s.view s.blocks))
    (hq : s.QueueOk) : (s.mapBlocks f).QueueOk := h.queue hq

theorem finish_carries (s : State) : Carries s s.finish := mapBlocks_carries (finish_steady s.view s.view s.blocks).sound

theorem finish_queueOk {s : State} (h : s.QueueOk) : s.finish.QueueOk :=
  mapBlocks_queueOk (finish_steady s.view s.view s.blocks) h

/-! ### An application (R37 to R39) -/

theorem apply_floor (e : ReplicaEngine) (a : Level) (sender : Nat) (body : FrameBody) (h : e.replica.Sound) :
    (e.apply a sender body).replica.Sound ∧
      (e.apply a sender body).digest = (e.apply a sender body).replica.digest :=
  ⟨applyBody_sound h a sender body, rfl⟩

theorem applyHeard_carries (f : HeardFrame) (s : State) : Carries s (applyHeard f s) :=
  ⟨rfl, rfl, rfl, signalBlocks_keeps _ _ _, fun _ h => apply_floor _ _ _ _ h.1⟩

/-- An application brings the Dispatch Queue into line (R88). -/
theorem applyHeard_queueOk (f : HeardFrame) (s : State) (hf : s.blocks.lane.Fit) (htx : s.blocks.lc.tx = none)
    (fresh : ∀ lot k, f.body = .bid lot k → f.own = true → (lot, k) ∉ s.blocks.steps) : (applyHeard f s).QueueOk :=
  signalBlocks_ok _ _ _ hf fresh htx

theorem hearState_carries (h : Heard) (s : State) : Carries s (hearState h s) := by
  unfold hearState
  refine .ite (.ite (mapBlocks_carries ?_) (applyHeard_carries _ s)) (.refl s)
  unfold bufferFrame
  split
  · next room =>
    exact ⟨fun ⟨hlc, hjunk, _, hrest⟩ => ⟨hlc, hjunk, by simpa using Nat.succ_le_of_lt room, hrest⟩, id, id⟩
  · exact failAttempt_keeps ..

/-- A state frame heard; an own BID names no step of the queue, and meets no snapshot under reception (R72, R85). -/
theorem hearState_queueOk (h : Heard) (s : State) (hq : s.QueueOk) (htx : s.blocks.lc.tx = none)
    (hbid : ∀ lot k, h.body = .bid lot k → h.own = true →
      (lot, k) ∉ s.blocks.steps ∧ s.blocks.cu.phase ≠ .receiving) : (hearState h s).QueueOk := by
  unfold hearState
  split
  · split
    · next hc =>
      have hp : s.blocks.cu.phase = .receiving := by simpa using hc
      refine mapBlocks_queueOk (bufferFrame_steady _ _ _ _ hp fun ho => ?_) hq
      cases hbody : h.body with
      | bid lot k => exact absurd hp (hbid lot k hbody ho).2
      | _ => rfl
    · exact applyHeard_queueOk _ s hq.fit htx fun lot k hb ho => (hbid lot k hb ho).1
  · exact hq

/-! ### The completion of a catch-up (R73, R74) -/

theorem evaluated_carries (s : State) : Carries s s.evaluated := mapBlocks_carries (settle_quiet s.view s.blocks).sound

theorem applyBuffer_carries : ∀ (fs : List HeardFrame) (s : State), Carries s (applyBuffer fs s).2
  | [], s => .refl s
  | f :: fs, s => by
    have h := (applyHeard_carries f s).trans (evaluated_carries _)
    unfold applyBuffer
    simp only
    split
    · exact h
    · exact h.trans (applyBuffer_carries fs _)

/-- In JOINING the buffered frames, none of which is an own BID, leave the lane alone. -/
theorem applyBuffer_lane : ∀ (fs : List HeardFrame) (s : State), s.blocks.station = .joining →
    (∀ f ∈ fs, f.own = true → f.body.isBid = false) → (applyBuffer fs s).2.blocks.lane = s.blocks.lane
  | [], s, _, _ => rfl
  | f :: fs, s, hs, hb => by
    have happly : Quiet s.blocks ((applyHeard f s).evaluated).blocks :=
      (signalBlocks_quiet _ _ _ hs (hb f List.mem_cons_self)).trans (settle_quiet _ _)
    unfold applyBuffer
    simp only
    split
    · exact happly.lane
    · exact (applyBuffer_lane fs _ (happly.station.trans hs) fun g hg => hb g (List.mem_cons_of_mem _ hg)).trans
        happly.lane

theorem installSnapshot_quiet (a : Assembly) (s : State) : Quiet s.blocks (installSnapshot a s).blocks :=
  (((setCopy_quiet s.blocks.cu.session .empty rfl s.blocks).trans (unmarkSpent_quiet _ _)).trans
    (markDue_quiet _)).trans (settle_quiet _ _)

theorem installSnapshot_carries (a : Assembly) (s : State) (hs : copySound s.blocks.cu.copy = true → a.rep.sound = true)
    (hd : a.digest = a.rep.digest) : Carries s (installSnapshot a s) :=
  ⟨rfl, rfl, rfl, (installSnapshot_quiet a s).sound, fun hc _ => ⟨(Replica.sound_iff _).mp (hs hc), hd⟩⟩

/-- The Catch-up Unit once a catch-up has completed (R74). -/
def CatchUpUnit.completed (u : CatchUpUnit) : CatchUpUnit :=
  { u with phase := .none, attempts := 0, reference := none, buffer := [], copy := .empty, snapshotTimer := none }

theorem completeCatchUp_keeps (v : View) (r : Nat) (b : Blocks) : Keeps b (completeCatchUp v r b) :=
  ((((setCu_keeps b.cu.completed rfl rfl b).trans (enterState_enters v .active _).sound).trans (raise_keeps _ _)).trans
    (orphanCheck_quiet v _).sound).trans (bringIntoLine_keeps v true _)

theorem completeCatchUp_ok (v : View) (r : Nat) (b : Blocks) (hf : b.lane.Fit) (hp : b.cu.phase = .receiving) :
    Machine.QueueOk v (completeCatchUp v r b).lane := by
  have h := ((enterState_enters v .active { b with cu := b.cu.completed }).quiet (raise_quiet (.joined v.count r) _)).quiet
    (orphanCheck_quiet v _)
  refine bringIntoLine_ok v true (orphanCheck v (raise (.joined v.count r)
    (enterState v .active { b with cu := b.cu.completed }))) ?_
  obtain ⟨_, hlisten⟩ := hf.joining_of_phase (hp.trans_ne (by decide))
  obtain ⟨hanswer, hdefer, _, hretry⟩ := hf.timers.stopped
  have han : b.cu.answerTimer = none := hanswer (hp.trans_ne (by decide))
  have hde : b.cu.deferTimer = none := hdefer (hp.trans_ne (by decide))
  have hre : b.cu.retryTimer = none := hretry (hp.trans_ne (by decide))
  have hcu := hf.setCu (u := { b.cu.completed with session := none })
    ⟨fun k => by simp [CatchUpUnit.completed, han] at k, fun k => by simp [CatchUpUnit.completed, hde] at k,
      fun k => by simp [CatchUpUnit.completed] at k, fun k => by simp [CatchUpUnit.completed, hre] at k⟩
    rfl (by simp [CatchUpUnit.completed]) (fun _ => rfl) fun _ => rfl
  exact h.lane ▸ hcu.enter (fun _ => rfl) fun k => by simp [hlisten] at k

theorem installAndComplete_carries (r : Nat) (a : Assembly) (s : State)
    (hs : copySound s.blocks.cu.copy = true → a.rep.sound = true) (hd : a.digest = a.rep.digest) :
    Carries s (installAndComplete r a s) := by
  have h := (installSnapshot_carries a s hs hd).trans (applyBuffer_carries s.blocks.cu.buffer _)
  unfold installAndComplete
  split
  · next t ht =>
    rw [ht] at h
    exact h.trans (mapBlocks_carries (completeCatchUp_keeps ..))
  · next t ht =>
    rw [ht] at h
    exact h.trans (mapBlocks_carries (failAttempt_keeps ..))

theorem installAndComplete_queueOk (r : Nat) (a : Assembly) (s : State) (hq : s.QueueOk)
    (hp : s.blocks.cu.phase = .receiving) : (installAndComplete r a s).QueueOk := by
  have hinstall := installSnapshot_quiet a s
  have hjoining : s.blocks.station = .joining := (hq.fit.joining_of_phase (hp.trans_ne (by decide))).1
  have hlane : (applyBuffer s.blocks.cu.buffer (installSnapshot a s)).2.blocks.lane = s.blocks.lane :=
    (applyBuffer_lane _ _ (hinstall.station.trans hjoining) hq.fit.buffered).trans hinstall.lane
  have hbuffered : ∀ t : State, t.blocks.lane = s.blocks.lane → t.blocks.lane.Fit ∧ t.blocks.cu.phase = .receiving :=
    fun t ht => ⟨by rw [ht]; exact hq.fit, (congrArg (fun l : Lane => l.cu.phase) ht).trans hp⟩
  unfold installAndComplete
  split
  · next t ht =>
    rw [ht] at hlane
    obtain ⟨hfit, hphase⟩ := hbuffered t hlane
    exact mapBlocks_queueOk_iff.mpr (completeCatchUp_ok t.view r t.blocks hfit hphase)
  · next t ht =>
    rw [ht] at hlane
    obtain ⟨hfit, hphase⟩ := hbuffered t hlane
    exact mapBlocks_queueOk_iff.mpr
      (failAttempt_ok t.view t.view .holdFull t.blocks (hfit.mayAttempt (hphase.trans_ne (by decide))))

/-- A snapshot is installed only whole, with the digest of what it placed (R73). -/
theorem judgeEnd_install {u : CatchUpUnit} {c d : Word32} {n : Nat} {a : Assembly}
    (h : judgeEnd u c d n = .install a) : receivingCopy u.copy = some a ∧ a.rep.digest = a.digest := by
  unfold judgeEnd at h
  split at h
  · next a₀ hcopy =>
    split at h
    · cases h
    · split at h
      · next hd =>
        cases h
        exact ⟨hcopy, hd⟩
      · cases h
  · cases h

theorem endHeard_carries (r : Nat) (c d : Word32) (n : Nat) (s : State) : Carries s (endHeard r c d n s) := by
  unfold endHeard
  refine .ite ?_ (.refl s)
  split
  · exact mapBlocks_carries (Keeps.trans (b := restartSnapshot s.blocks) ⟨id, id, id⟩ (failAttempt_keeps ..))
  · next a ha =>
    obtain ⟨hcopy, hd⟩ := judgeEnd_install ha
    exact installAndComplete_carries r a s (copySound_receiving hcopy) hd.symm

theorem endHeard_queueOk (r : Nat) (c d : Word32) (n : Nat) (s : State) (hq : s.QueueOk) :
    (endHeard r c d n s).QueueOk := by
  unfold endHeard
  split
  · next hc =>
    have hp : s.blocks.cu.phase = .receiving := by simpa using hc
    split
    · exact mapBlocks_queueOk ((restartSnapshot_steady _ _ hp).trans
        (failAttempt_steady _ _ _ _ (hp.trans_ne (by decide)))) hq
    · exact installAndComplete_queueOk r _ s hq hp
  · exact hq

/-! ### The Catch-up Unit's hearing (R63 to R74) -/

theorem beginHeard_keeps (v : View) (c d : Word32) (l h k : Nat) (b : Blocks) : Keeps b (beginHeard v c d l h k b) := by
  unfold beginHeard
  refine .ite ⟨fun ⟨hlc, hjunk, _, hrest⟩ => ⟨hlc, hjunk, Nat.zero_le _, hrest⟩, fun _ => rfl, id⟩
    (.ite (failAttempt_keeps ..) (.refl b))

theorem referenceHeard_carries (r : Nat) (body : FrameBody) (s : State) : Carries s (referenceHeard r body s) := by
  unfold referenceHeard
  split
  · exact mapBlocks_carries (deferHeard_steady _ s.view _).sound
  · exact mapBlocks_carries (beginHeard_keeps ..)
  · exact mapBlocks_carries (entryHeard_steady _ s.view _ _ _).sound
  · exact mapBlocks_carries (entryHeard_steady _ s.view _ _ _).sound
  · exact endHeard_carries ..
  · exact .refl s

theorem referenceHeard_queueOk (r : Nat) (body : FrameBody) (s : State) (hq : s.QueueOk) (htx : s.blocks.lc.tx = none) :
    (referenceHeard r body s).QueueOk := by
  unfold referenceHeard
  split
  · exact mapBlocks_queueOk (deferHeard_steady _ _ _) hq
  · exact mapBlocks_queueOk (beginHeard_steady _ _ _ _ _ _ _ _ htx) hq
  · exact mapBlocks_queueOk (entryHeard_steady _ _ _ _ _) hq
  · exact mapBlocks_queueOk (entryHeard_steady _ _ _ _ _) hq
  · exact endHeard_queueOk _ _ _ _ s hq
  · exact hq

theorem hearCatchUp_carries (h : Heard) (s : State) : Carries s (hearCatchUp h s) := by
  unfold hearCatchUp
  split
  · exact .ite (mapBlocks_carries (reqHeard_steady s.view _ _).sound)
      (.ite (mapBlocks_carries (serveReq_quiet _ _).sound) (.refl s))
  · exact .ite (mapBlocks_carries (referenceBeacon_steady _ s.view _ _).sound) (.refl s)
  · exact .ite (referenceHeard_carries ..) (.refl s)

theorem hearCatchUp_queueOk (h : Heard) (s : State) (hq : s.QueueOk) (htx : s.blocks.lc.tx = none) :
    (hearCatchUp h s).QueueOk := by
  unfold hearCatchUp
  split
  · split
    · exact mapBlocks_queueOk (reqHeard_steady _ _ _) hq
    · split
      · exact mapBlocks_queueOk (serveReq_quiet _ _).steady hq
      · exact hq
  · split
    · exact mapBlocks_queueOk (referenceBeacon_steady _ _ _ _) hq
    · exact hq
  · split
    · exact referenceHeard_queueOk _ _ s hq htx
    · exact hq

/-! ### The hearing of a frame (R7) -/

/-- What the Presence Unit makes of the state before the frame is handed on (R7). -/
theorem hearPeerState_carries (h : Heard) (s : State) :
    Carries s (if h.own then s else s.mapBlocks fun v b => hearPeer v h b) :=
  .ite (.refl s) (mapBlocks_carries (hearPeer_steady _ s.view _ _).sound)

theorem hear_carries (h : Heard) (s : State) : Carries s (hear h s) :=
  ((hearPeerState_carries h s).trans (hearState_carries h _)).trans (hearCatchUp_carries h _)

theorem hear_queueOk (h : Heard) (s : State) (hq : s.QueueOk) (htx : s.blocks.lc.tx = none)
    (hbid : ∀ lot k, h.body = .bid lot k → h.own = true →
      (lot, k) ∉ s.blocks.steps ∧ s.blocks.cu.phase ≠ .receiving) : (hear h s).QueueOk := by
  unfold hear
  have hpeer : ∀ t : State, t = (if h.own then s else s.mapBlocks fun v b => hearPeer v h b) →
      t.QueueOk ∧ t.blocks.lc.tx = none ∧ (hearState h t).QueueOk := by
    rintro t rfl
    split
    · exact ⟨hq, htx, hearState_queueOk h s hq htx hbid⟩
    · next ho =>
      have htx' := (hearPeer_tx s.view h s.blocks).trans htx
      have hq' : (s.mapBlocks fun v b => hearPeer v h b).QueueOk := mapBlocks_queueOk (hearPeer_steady _ _ _ _) hq
      exact ⟨hq', htx', hearState_queueOk h _ hq' htx' fun _ _ _ k => absurd k ho⟩
  obtain ⟨hq', htx', hstate⟩ := hpeer _ rfl
  cases hs : h.body.isState
  · have hsame : ∀ t : State, hearState h t = t := fun t => by simp [hearState, hs]
    simp only [hsame]
    exact hearCatchUp_queueOk h _ hq' htx'
  · rw [hearCatchUp_state h _ hs]
    exact hstate

/-! ### The end of a frame (R5, R6, R15) -/

theorem endTx_keeps (m : Medium) (b : Blocks) : Keeps b (endTx m b) := ⟨id, id, id⟩

/-- With no frame in transmission there is nothing for a BID of it to meet. -/
theorem Lane.Fit.endTx {l : Lane} (h : l.Fit) : Lane.Fit { l with tx := none } :=
  ⟨h.distinct, fun x _ _ hx _ => by simp at hx, h.buffered, h.joining, h.listening, h.timers⟩

theorem endTx_steady (w : View) (m : Medium) (b : Blocks) : Steady w b (endTx m b) :=
  ⟨endTx_keeps m b, fun h => ⟨h.fit.endTx, h.own⟩⟩

theorem dropInTx_quiet (p : SendEntry → Bool) (b : Blocks) :
    Quiet b (setLc { b.lc with queue := b.lc.queue.filter p } b) :=
  .of_lc (fun h => h.sublist List.filter_sublist fun _ he => he) ⟨rfl, rfl, rfl⟩

theorem refillLc_quiet (n : Nat) (b : Blocks) : Quiet b (setLc (refill n b.lc) b) :=
  .of_lc (refill_bounded n) (refill_rest n b.lc)

/-- What the end of an own frame does behind the end of its transmission (R15, R68). -/
theorem sentRest_quiet (t : TxFrame) (n : Nat) (b : Blocks) :
    Quiet b (setLc (refill n (snapSent t.body t.target (setLc { b.lc with queue := b.lc.queue.filter fun e => !e.inTx } b)).lc)
      (snapSent t.body t.target (setLc { b.lc with queue := b.lc.queue.filter fun e => !e.inTx } b))) :=
  ((dropInTx_quiet _ b).trans (snapSent_quiet _ _ _)).trans (refillLc_quiet n _)

theorem sentEntry_quiet (t : TxFrame) (b : Blocks) : Quiet (endTx (.ended 0) b) (sentEntry t b) :=
  sentRest_quiet t _ _

theorem sentEntry_steady (w : View) (t : TxFrame) (b : Blocks) : Steady w b (sentEntry t b) :=
  (endTx_steady w _ b).trans (sentEntry_quiet t b).steady

theorem countJunk_quiet (b : Blocks) : Quiet b (countJunk b) :=
  ⟨⟨fun ⟨hlc, _, hrest⟩ => ⟨hlc, Nat.min_le_left _ _, hrest⟩, id, id⟩, rfl⟩

theorem setMedium_quiet (m : Medium) (b : Blocks) : Quiet b (setLc { b.lc with medium := m } b) :=
  ⟨⟨id, id, id⟩, rfl⟩

theorem ownFrameEnd_carries (t : TxFrame) (s : State) : Carries s (ownFrameEnd t s) := by
  have h := mapBlocks_carries (s := s) (f := fun _ b => sentEntry t b) (sentEntry_steady s.view t s.blocks).sound
  exact .ite h (h.trans (hear_carries _ _))

theorem ownFrameEnd_queueOk (t : TxFrame) (s : State) (hq : s.QueueOk) (ht : s.blocks.lc.tx = some t) :
    (ownFrameEnd t s).QueueOk := by
  have hsent := sentEntry_quiet t s.blocks
  have hq' : (s.mapBlocks fun _ b => sentEntry t b).QueueOk := mapBlocks_queueOk (sentEntry_steady _ t _) hq
  unfold ownFrameEnd
  simp only
  split
  · exact hq'
  · refine hear_queueOk _ _ hq' hsent.tx fun lot k hb _ => ?_
    obtain ⟨hsteps, hphase⟩ := hq.fit.bid t lot k ht hb
    have hsame : (s.mapBlocks fun _ b => sentEntry t b).blocks.steps = s.blocks.steps := hsent.steps
    have hsame' : (s.mapBlocks fun _ b => sentEntry t b).blocks.cu.phase = s.blocks.cu.phase := hsent.phase
    exact ⟨hsame ▸ hsteps, hsame' ▸ hphase⟩

theorem peerFrameEnd_carries (m : Medium) (f : Option RxFrame) (s : State) : Carries s (peerFrameEnd m f s) := by
  have h := mapBlocks_carries (s := s) (f := fun _ b => endTx m b) (endTx_keeps m s.blocks)
  have hjunk := h.trans (mapBlocks_carries (f := fun _ b => countJunk b) (countJunk_quiet _).sound)
  unfold peerFrameEnd
  simp only
  split
  · exact hjunk
  · split
    · exact hjunk
    · exact .ite h (h.trans (hear_carries _ _))

theorem peerFrameEnd_queueOk (m : Medium) (f : Option RxFrame) (s : State) (hq : s.QueueOk) :
    (peerFrameEnd m f s).QueueOk := by
  have h : (s.mapBlocks fun _ b => endTx m b).QueueOk := mapBlocks_queueOk (endTx_steady _ m _) hq
  have hjunk : ((s.mapBlocks fun _ b => endTx m b).mapBlocks fun _ b => countJunk b).QueueOk :=
    mapBlocks_queueOk (countJunk_quiet _).steady h
  unfold peerFrameEnd
  simp only
  split
  · exact hjunk
  · split
    · exact hjunk
    · split
      · exact h
      · exact hear_queueOk _ _ h rfl fun _ _ _ ho => by simp at ho

theorem frameEnd_carries (r : Reception) (s : State) : Carries s (frameEnd r s) := by
  unfold frameEnd
  split
  · exact .ite ((ownFrameEnd_carries _ s).trans (finish_carries _)) (.refl s)
  · split
    · exact (peerFrameEnd_carries _ _ s).trans (finish_carries _)
    · exact mapBlocks_carries (setMedium_quiet _ _).sound

theorem frameEnd_queueOk (r : Reception) (s : State) (hq : s.QueueOk) : (frameEnd r s).QueueOk := by
  unfold frameEnd
  split
  · next t ht =>
    split
    · exact finish_queueOk (ownFrameEnd_queueOk t s hq ht)
    · exact hq
  · split
    · exact finish_queueOk (peerFrameEnd_queueOk _ _ s hq)
    · exact mapBlocks_queueOk (setMedium_quiet _ _).steady hq

end Sys2Proof.Machine
end

section
/-! Transmitting (R12 to R17), the verdicts (R135 to R143), the Tester Line (R120 to R128) and the timers: what each keeps
of the stores and of the Dispatch Queue. -/

namespace Sys2Proof.Machine

/-! ### A valid entry starts (R12, R85) -/

theorem markFirst_length (p : SendEntry → Bool) (q : List SendEntry) : (markFirst p q).length = q.length := by
  induction q with
  | nil => rfl
  | cons x xs ih =>
    unfold markFirst
    split <;> simp_all

theorem markFirst_hosts (p : SendEntry → Bool) (q : List SendEntry) :
    ((markFirst p q).filter fun e => e.host).length = (q.filter fun e => e.host).length := by
  induction q with
  | nil => rfl
  | cons x xs ih =>
    unfold markFirst
    split
    · cases hx : x.host <;> simp [hx]
    · cases hx : x.host <;> simp [hx, ih]

theorem startEntry_keeps (v : View) (e : SendEntry) (b : Blocks) : Keeps b (startEntry v e b) := by
  have hcopy : Quiet b (if isSnapBegin e.body then copyReplica v b else b) := .ite (copyReplica_quiet v b) (.refl b)
  refine hcopy.sound.trans ⟨fun ⟨⟨hlength, hhost, hwaiting⟩, hrest⟩ => ⟨⟨?_, ?_, hwaiting⟩, hrest⟩, id, id⟩
  · exact (markFirst_length _ _).trans_le hlength
  · exact (markFirst_hosts _ _).trans_le hhost

/-- The lane of a started entry: its frame is in transmission. -/
theorem startEntry_lane (v : View) (e : SendEntry) (b : Blocks) :
    (startEntry v e b).lane = { b.lane with tx := some ⟨contentNow v b e.body, e.target⟩ } := by
  have hcopy : Quiet b (if isSnapBegin e.body then copyReplica v b else b) := .ite (copyReplica_quiet v b) (.refl b)
  exact congrArg (fun l : Lane => { l with tx := some ⟨contentNow v b e.body, e.target⟩ }) hcopy.lane

theorem contentNow_bid {v : View} {b : Blocks} {body : FrameBody} {lot k : Nat}
    (h : contentNow v b body = .bid lot k) : body = .bid lot k := by
  cases body <;> first | exact h | cases h

/-- The LC starts a BID for a member of the floor alone (R13). -/
theorem isMember_of_bid_allowed {s : StationState} (h : kindAllowed s 6 = true) : isMember s = true := by
  cases s <;> simp_all [kindAllowed, isMember]

/-- A step that a valid BID names is WAITING, so not this station's (R85). -/
theorem shows_of_bidValid {v : View} {b : Blocks} {lot k : Nat} (h : bidValid v b lot k = true) :
    v.shows (lot, k) = false := by
  unfold bidValid at h
  split at h
  · next l hl =>
    split at h
    · next s hs =>
      simp only [Bool.and_eq_true] at h
      obtain ⟨⟨⟨hwaiting, _⟩, _⟩, _⟩ := h
      have hstep : v.rep.step? lot k = some s := by simp [Replica.step?, hl, hs]
      simp only [View.shows, hstep]
      cases hst : s.state <;> simp_all [StepState.isWaiting, StepState.heldBy, StepState.claimedBy, StepState.runningAt]
    · cases h
  · cases h

/-- A valid entry of a kind that the station state allows starts with the Dispatch Queue in line (R12, R13, R85). -/
theorem startEntry_steady (v : View) (e : SendEntry) (b : Blocks) (ha : allowed b e = true) (hv : valid v b e = true) :
    Steady v b (startEntry v e b) := by
  refine ⟨startEntry_keeps v e b, fun h => ?_⟩
  rw [startEntry_lane]
  have hf := h.fit
  refine ⟨⟨hf.distinct, fun x lot k hx hb => ?_, hf.buffered, hf.joining, hf.listening, hf.timers⟩, h.own⟩
  cases hx
  have hbody := contentNow_bid hb
  simp only [allowed, hbody] at ha
  have hm : isMember b.station = true := isMember_of_bid_allowed ha
  simp only [valid, hbody] at hv
  refine ⟨fun hmem => ?_, ?_⟩
  · simpa [shows_of_bidValid hv] using h.own hm _ hmem
  · rw [hf.phase_none (ne_joining_of_isMember hm)]
    decide

/-! ### An invalid entry is removed (R12) -/

theorem removeFirst_sublist (p : SendEntry → Bool) (q : List SendEntry) : (removeFirst p q).Sublist q := by
  induction q with
  | nil => exact .slnil
  | cons x xs ih =>
    unfold removeFirst
    split
    · exact .cons _ (List.Sublist.refl xs)
    · exact .cons_cons _ ih

theorem dropFirst_quiet (b : Blocks) : Quiet b (dropFirst b) :=
  .of_lc (fun h => h.sublist (removeFirst_sublist _ _) fun _ he => he) ⟨rfl, rfl, rfl⟩

theorem holdInvalid_quiet (v : View) (sn : BitVec 8) (t : HoldTarget) (l : Level) (r : Reason) (b : Blocks) :
    Quiet b (holdInvalid v sn t l r b) :=
  .ite (raise_quiet _ b) (.ite (.refl b) (raise_quiet _ b))

theorem cedeInvalid_quiet (v : View) (lot k : Nat) (host : Bool) (b : Blocks) : Quiet b (cedeInvalid v lot k host b) :=
  .ite (markDue_quiet b) (((updateEntry_quiet lot k (fun e => { e with cede := none }) (fun _ => rfl) b).trans
    (markDue_quiet _)).trans (raiseIf_quiet _ _ _))

theorem takeInvalid_quiet (v : View) (k : Nat) (b : Blocks) : Quiet b (takeInvalid v k b) := by
  unfold takeInvalid
  split
  · exact tryNext_quiet v _ k b
  · exact .refl b

theorem reqInvalid_steady (v w : View) (t : Nat) (b : Blocks) : Steady w b (reqInvalid v t b) := by
  unfold reqInvalid
  split
  · next hc =>
    have hp : b.cu.phase = .requesting := by simp_all
    exact failAttempt_steady v w _ b (hp.trans_ne (by decide))
  · exact .refl w b

theorem toldInvalid_steady (v w : View) (e : SendEntry) (b : Blocks) : Steady w b (toldInvalid v e b) := by
  unfold toldInvalid
  split
  case h_1 => exact (holdInvalid_quiet ..).steady
  case h_3 => exact ((updateRelease_quiet _ _ b).trans (releaseCheck_quiet v _ _)).steady
  case h_4 => exact (startGone_quiet ..).steady
  case h_5 => exact (cedeInvalid_quiet ..).steady
  case h_6 => exact (markDue_quiet b).steady
  case h_14 => exact (takeInvalid_quiet ..).steady
  case h_15 => exact (dropGive_quiet ..).steady
  case h_16 => exact reqInvalid_steady ..
  case h_17 | h_18 | h_19 => exact (endSession_quiet b).steady
  case h_20 => exact .refl w b
  all_goals exact (raise_quiet _ b).steady

theorem rejectFirst_steady (v w : View) (e : SendEntry) (b : Blocks) : Steady w b (rejectFirst v e b) :=
  ((dropFirst_quiet b).steady.trans (toldInvalid_steady v w e _)).trans (refillLc_quiet 1 _).steady

theorem startFirst_steady (v : View) (n : Nat) : ∀ b : Blocks, Steady v b (startFirst v n b) := by
  induction n with
  | zero => exact fun b => .refl v b
  | succ n ih =>
    intro b
    unfold startFirst
    split
    · next e he =>
      split
      · next hv => exact startEntry_steady v e b (by simpa using List.find?_some he) hv
      · exact (rejectFirst_steady v v e b).trans (ih _)
    · exact .refl v b

theorem transmitStart_steady (v : View) (b : Blocks) : Steady v b (transmitStart v b) := by
  unfold transmitStart
  split
  · exact .refl v b
  · exact ((setMedium_quiet .idle b).steady.trans (startFirst_steady v _ _)).trans (finish_steady v v _)

/-! ### A transmission that does not reach its end (R14, R16, R17) -/

theorem clearTx_quiet (f : SendEntry → SendEntry) (hf : ∀ e, (f e).host = e.host) (b : Blocks) :
    Quiet b (setLc { b.lc with queue := clearTx b.lc.queue f } b) :=
  .of_lc (fun h => h.map _ fun e => by split; exacts [hf e, rfl]) ⟨rfl, rfl, rfl⟩

theorem dropRemoved_quiet (b : Blocks) : Quiet b (dropRemoved b) :=
  .ite (Quiet.trans (b := setLc (b.lc.release fun e => e.removal && !e.inTx) b)
    (.of_lc (release_bounded _) (release_rest _ b.lc)) (markDue_quiet _)) (.refl b)

theorem stopTx_steady (w : View) (m : Medium) (t : TxFrame) (f : SendEntry → SendEntry)
    (hf : ∀ e, (f e).host = e.host) (b : Blocks) : Steady w b (stopTx m t f b) :=
  (endTx_steady w m b).trans (((clearTx_quiet f hf _).trans (.ite (reopenSession_quiet _) (.refl _))).trans
    (dropRemoved_quiet _)).steady

theorem arbitrationLost_steady (v w : View) (b : Blocks) : Steady w b (arbitrationLost v b) := by
  unfold arbitrationLost
  split
  · exact (stopTx_steady w _ _ id (fun _ => rfl) b).trans (finish_steady v w _)
  · exact .refl w b

theorem linkFault_steady (v w : View) (e : SendEntry) (b : Blocks) : Steady w b (linkFault v e b) :=
  ((endTx_steady w (.notIdle 0) b).trans ((((dropInTx_quiet (fun x => !x.inTx) _).trans (sendFailed_quiet v e.body _)).trans
    (emptySendQueue_quiet v _)).trans (raise_quiet _ _)).steady).trans (enterFaulted_steady v w _)

theorem transmitFault_steady (v w : View) (b : Blocks) : Steady w b (transmitFault v b) := by
  unfold transmitFault
  split
  · split
    · split
      · exact (linkFault_steady v w _ b).trans (finish_steady v w _)
      · exact (stopTx_steady w _ _ (fun x => { x with faults := x.faults + 1 }) (fun _ => rfl) b).trans
          (finish_steady v w _)
    · exact (endTx_steady w _ b).trans (finish_steady v w _)
  · exact .refl w b

/-! ### The Insertion Watch (R135 to R143) -/

theorem seat_quiet (v : View) (m : SiteMask) (b : Blocks) : Quiet b (seat v m b) := by
  have hwait : ∀ m, (∀ x n, b.iw.insertion ≠ .inTest x n) →
      Quiet b (setIw { b.iw with insertion := .waitingGate m, halt := true } b) := fun m hu =>
    .of_iw fun h => goOverTest_of_released (h.go_false hu) (h.2 (h.go_false hu))
  unfold seat
  simp only
  split
  · next hi =>
    have hu : ∀ x n, b.iw.insertion ≠ .inTest x n := by simp [hi]
    split
    · next hg => exact issueGo_quiet v _ b hg hu
    · exact hwait _ hu
  · next hi => exact hwait _ (by simp [hi])
  · exact raise_quiet _ b

/-- The Insertion Watch changed outside the gate, the insertion and the lines of GO. -/
theorem setIw_quiet {w : InsertionWatch} {b : Blocks} (hgate : w.gate = b.iw.gate)
    (hins : w.insertion = b.iw.insertion) (hgo : w.go = b.iw.go) (hen : w.en = b.iw.en) : Quiet b (setIw w b) :=
  .of_iw fun h => by unfold InsertionWatch.GoOverTest at *; rwa [hgate, hins, hgo, hen]

theorem setSite_quiet (n : Nat) (r : SiteRec) (b : Blocks) : Quiet b (setSite n r b) := setIw_quiet rfl rfl rfl rfl

theorem sitesHold_quiet (v : View) (b : Blocks) : Quiet b (sitesHold v b) := .ite (.refl b) (autoHold_quiet ..)

theorem maskingTest_quiet (v : View) (n : Nat) (b : Blocks) : Quiet b (maskingTest v n b) :=
  .ite ((((setSite_quiet n _ b).trans (raise_quiet _ _)).trans (evaluateGate_quiet v _)).trans (sitesHold_quiet v _))
    (.refl b)

theorem siteResult_quiet (n : Nat) (p : Bool) (b : Blocks) : Quiet b (siteResult n p b) :=
  .ite (setSite_quiet n _ b) (.refl b)

theorem lotHold_quiet (v : View) (l : Level) (r : Reason) (b : Blocks) : Quiet b (lotHold v l r b) := by
  unfold lotHold
  split
  · exact autoHold_quiet ..
  · exact .refl b

theorem setWindowIw_quiet (xs : List UnitResult) (b : Blocks) : Quiet b (setIw { b.iw with window := xs } b) :=
  setIw_quiet rfl rfl rfl rfl

theorem setTripIw_quiet (n : Nat) (b : Blocks) : Quiet b (setIw { b.iw with trip := n } b) :=
  setIw_quiet rfl rfl rfl rfl

theorem setHaltIw_quiet (x : Bool) (b : Blocks) : Quiet b (setIw { b.iw with halt := x } b) :=
  setIw_quiet rfl rfl rfl rfl

theorem windowResult_quiet (v : View) (x : UnitResult) (b : Blocks) : Quiet b (windowResult v x b) :=
  .ite (((setWindowIw_quiet _ b).trans (lotHold_quiet v _ _ _)).trans (setWindowIw_quiet [] _)) (setWindowIw_quiet _ b)

theorem contactHold_quiet (v : View) (b : Blocks) : Quiet b (contactHold v b) := by
  unfold contactHold
  split
  · exact autoHold_quiet ..
  · exact .refl b

theorem tripResult_quiet (v : View) (bin : Nat) (b : Blocks) : Quiet b (tripResult v bin b) :=
  .ite (.ite ((contactHold_quiet v b).trans (setTripIw_quiet 0 _)) (setTripIw_quiet _ b)) (.refl b)

theorem takeUnit_quiet (v : View) (pass : BinMask) (n bin : Nat) (b : Blocks) : Quiet b (takeUnit v pass n bin b) := by
  have hsite : ∀ c p, Quiet b (maskingTest v n (siteResult n p (setCounters c b))) := fun c p =>
    ((setCounters_quiet c b).trans (siteResult_quiet n p _)).trans (maskingTest_quiet v n _)
  exact .ite (hsite _ _) (.ite (((hsite _ _).trans (windowResult_quiet v _ _)).trans (tripResult_quiet v _ _))
    (((hsite _ _).trans (windowResult_quiet v _ _)).trans (tripResult_quiet v _ _)))

theorem takeUnits_quiet (v : View) (pass : BinMask) (bins : BitVec 32) :
    ∀ (ns : List Nat) (b : Blocks), Quiet b (takeUnits v pass bins ns b) :=
  Quiet.fold (fun _ => rfl) (fun _ _ _ => rfl) fun n b => takeUnit_quiet v pass n (binOf bins n) b

theorem endInsertion_quiet (b : Blocks) : Quiet b (endInsertion b) :=
  .of_iw fun _ => goOverTest_of_released rfl rfl

theorem verdict_quiet (v : View) (bins : BitVec 32) (b : Blocks) : Quiet b (verdict v bins b) := by
  unfold verdict
  split
  · exact ((takeUnits_quiet v _ bins _ b).trans (endInsertion_quiet _)).trans (insertionCounted_quiet v _)
  · exact raise_quiet _ b

theorem insertionTimeout_quiet (v : View) (b : Blocks) : Quiet b (insertionTimeout v b) := by
  unfold insertionTimeout
  split
  · exact ((((setCounters_quiet _ b).trans (endInsertion_quiet _)).trans (setHaltIw_quiet true _)).trans
      (lotHold_quiet v _ _ _)).trans (insertionCounted_quiet v _)
  · exact .refl b

/-! ### The Tester Line (R120 to R128, R183) -/

theorem stray_quiet (type slot : Nat) (b : Blocks) : Quiet b (stray type slot b) := by
  unfold stray
  split
  · exact .refl b
  · exact raise_quiet _ b

theorem setCounts_quiet (s : Slot) (p : SlotProgram) (b : Blocks) : Quiet b (setCounts s p b) := by
  cases s <;> exact ⟨⟨id, id, id⟩, rfl⟩

theorem blockOk_quiet (v : View) (slot n : Nat) (b : Blocks) : Quiet b (blockOk v slot n b) := by
  unfold blockOk
  split
  · split
    · exact .ite ((setCounts_quiet _ _ b).trans (setOp_quiet _ _)) (failOp_quiet v _ _ b)
    · exact .refl b
  · exact stray_quiet _ _ b

theorem reissue_quiet (v : View) (s : Slot) (p : SlotProgram) (n : Nat) (b : Blocks) : Quiet b (reissue v s p n b) :=
  ((setCounts_quiet _ _ b).trans (setOp_quiet _ _)).trans (sendDirective_quiet _ _)

theorem blockBad_quiet (v : View) (slot n cause : Nat) (b : Blocks) : Quiet b (blockBad v slot n cause b) := by
  unfold blockBad
  split
  · split
    · exact .ite (failOp_quiet v _ _ b) (.ite (reissue_quiet v _ _ n b) (failOp_quiet v _ _ b))
    · exact .refl b
  · exact stray_quiet _ _ b

theorem loadEnd_quiet (v : View) (slot : Nat) (b : Blocks) : Quiet b (loadEnd v slot b) := by
  unfold loadEnd
  split
  · split
    · exact .ite (((setOp_quiet none b).trans (setSlot_quiet _ _ _)).trans (.ite (issueVerify_quiet _ _) (.refl _)))
        (failOp_quiet v _ _ b)
    · exact .refl b
  · exact stray_quiet _ _ b

theorem verified_quiet (s : Slot) (b : Blocks) : Quiet b (verified s b) := by
  unfold verified
  split
  · exact ((setOp_quiet none b).trans (setSlot_quiet _ _ _)).trans (raise_quiet _ _)
  · exact setOp_quiet none b

theorem verifyResult_quiet (v : View) (slot : Nat) (m : Bool) (b : Blocks) : Quiet b (verifyResult v slot m b) := by
  unfold verifyResult
  split
  · exact .ite (verified_quiet _ b) (failOp_quiet v _ _ b)
  · exact stray_quiet _ _ b

theorem swapDone_quiet (b : Blocks) : Quiet b (swapDone b) :=
  .ite (((setOp_quiet none b).trans (setSlot_quiet _ _ _)).trans (setSlot_quiet _ _ _)) (raise_quiet _ b)

theorem purgeDone_quiet (slot : Nat) (b : Blocks) : Quiet b (purgeDone slot b) := by
  unfold purgeDone
  split
  · exact (setOp_quiet none b).trans (setSlot_quiet _ _ _)
  · exact raise_quiet _ b

theorem blockExpired_quiet (v : View) (b : Blocks) : Quiet b (blockExpired v b) := by
  unfold blockExpired
  split
  · exact failOp_quiet v _ _ b
  · exact .refl b

theorem verifyExpired_quiet (v : View) (b : Blocks) : Quiet b (verifyExpired v b) := by
  unfold verifyExpired
  split
  · exact failOp_quiet v _ _ b
  · exact .refl b

theorem swapExpired_quiet (b : Blocks) : Quiet b (swapExpired b) :=
  .ite ((((setOp_quiet none b).trans (setSlot_quiet _ _ _)).trans (setSlot_quiet _ _ _)).trans (raise_quiet _ _)) (.refl b)

theorem purgeExpired_quiet (b : Blocks) : Quiet b (purgeExpired b) := by
  unfold purgeExpired
  split
  · exact ((setOp_quiet none b).trans (setSlot_quiet _ _ _)).trans (raise_quiet _ _)
  · exact .refl b

theorem deliver_quiet (v : View) (m : TesterMsg) (b : Blocks) : Quiet b (deliver v m b) := by
  cases m with
  | blockOk slot n => exact blockOk_quiet ..
  | blockBad slot n c => exact blockBad_quiet ..
  | loadEnd slot => exact loadEnd_quiet ..
  | verifyResult slot m => exact verifyResult_quiet ..
  | swapDone => exact swapDone_quiet b
  | purgeDone slot => exact purgeDone_quiet ..
  | verdict bins => exact verdict_quiet ..

theorem setTesterRx_quiet (bs : List Byte) (b : Blocks) : Quiet b (setTesterRx bs b) := ⟨⟨id, id, id⟩, rfl⟩

theorem badTesterFrame_quiet (t : Option Nat) (b : Blocks) : Quiet b (badTesterFrame t b) := raise_quiet _ b

theorem receiveTester_steady (v w : View) (n : Nat) : ∀ (bs : List Byte) (b : Blocks),
    Steady w b (receiveTester v n bs b) := by
  induction n with
  | zero => exact fun bs b => (setTesterRx_quiet bs b).steady
  | succ n ih =>
    intro bs b
    unfold receiveTester
    split
    · exact (setTesterRx_quiet _ b).steady
    · exact ih _ b
    · exact (badTesterFrame_quiet _ b).steady.trans (ih _ _)
    · exact ((deliver_quiet v _ b).steady.trans (finish_steady v w _)).trans (ih _ _)

theorem testerBytes_steady (v w : View) (bs : List Byte) (b : Blocks) : Steady w b (testerBytes v bs b) :=
  receiveTester_steady v w _ _ b

theorem dropTesterPartial_steady (v w : View) (n : Nat) : ∀ b : Blocks, Steady w b (dropTesterPartial v n b) := by
  induction n with
  | zero => exact .refl w
  | succ n ih =>
    intro b
    unfold dropTesterPartial
    split
    · exact .refl w b
    · exact (((setTesterRx_quiet [] b).trans (badTesterFrame_quiet _ _)).steady.trans
        (receiveTester_steady v w _ _ _)).trans (ih _)

/-! ### The timers -/

theorem setListen_fit (b : Blocks) (h : b.lane.Fit) (w : Bool) : (setListen none w b).lane.Fit := h.stopListen

theorem examineListen_steady (v : View) (b : Blocks) (hs : b.station = .joining) (hl : b.pu.listenTimer.isSome = true) :
    Steady v b (examineListen v b) := by
  unfold examineListen
  split
  · refine ⟨(setListen_keeps none false b).trans (startCatchUp_keeps v _), fun h => ?_⟩
    exact startCatchUp_ok v v _ ⟨setListen_fit b h.fit false, hs, rfl⟩ (h.fit.listening hl).2
  · split
    · exact ⟨found_keeps v b, fun h => found_ok v b h.fit (h.fit.listening hl).2⟩
    · refine ⟨setListen_keeps _ _ b, fun h => ?_⟩
      have hf := h.fit
      have hphase := (hf.listening hl).2
      exact Lane.Fit.ok (l := { b.lane with listenTimer := some Config.listenMs })
        ⟨hf.distinct, hf.bid, hf.buffered, hf.joining, fun _ => ⟨congrArg isWorking hs, hphase⟩, hf.timers⟩
        (congrArg isMember hs)

theorem listenExpired_steady (v : View) (b : Blocks) : Steady v b (listenExpired v b) := by
  unfold listenExpired
  split
  · next n hn =>
    have hl : b.pu.listenTimer.isSome = true := by simp [hn]
    split
    · exact ⟨found_keeps v b, fun h => found_ok v b h.fit (h.fit.listening hl).2⟩
    · split
      · next hc => exact examineListen_steady v b (by simp_all) hl
      · exact ⟨setListen_keeps _ _ b, fun h => ⟨setListen_fit b h.fit _, h.own⟩⟩
  · exact .refl v b

theorem beaconExpired_quiet (v : View) (b : Blocks) : Quiet b (beaconExpired v b) := by
  unfold beaconExpired
  split
  · exact Quiet.trans (b := { b with pu := { b.pu with beaconTimer := some v.cfg.beaconInterval } })
      ⟨⟨id, id, id⟩, rfl⟩ (offerBeacon_quiet _)
  · exact .refl b

/-- The serve session of a requester that is gone ends (R70). -/
def sessionAbsent (p : Nat) (b : Blocks) : Blocks :=
  match b.cu.session with
  | some ss => if ss.requester == p then endSession b else b
  | none => b

/-- An attempt whose reference is gone fails (R64, R65, R71). -/
def referenceAbsent (v : View) (p : Nat) (b : Blocks) : Blocks :=
  if attemptRuns b.cu.phase && b.cu.reference == some p then failAttempt v .referenceAbsent b else b

theorem catchUpAbsent_eq (v : View) (p : Nat) (b : Blocks) :
    catchUpAbsent v p b = referenceAbsent v p (sessionAbsent p b) := rfl

theorem sessionAbsent_quiet (p : Nat) (b : Blocks) : Quiet b (sessionAbsent p b) := by
  unfold sessionAbsent
  split
  · exact .ite (endSession_quiet b) (.refl b)
  · exact .refl b

theorem referenceAbsent_steady (v w : View) (p : Nat) (b : Blocks) : Steady w b (referenceAbsent v p b) := by
  unfold referenceAbsent
  split
  · next hc =>
    refine failAttempt_steady v w _ _ fun hp => ?_
    simp [hp, attemptRuns] at hc
  · exact .refl w _

theorem catchUpAbsent_steady (v w : View) (p : Nat) (b : Blocks) : Steady w b (catchUpAbsent v p b) :=
  (sessionAbsent_quiet p b).steady.trans (referenceAbsent_steady v w p _)

theorem silenceExpired_steady (v w : View) (p : Nat) (b : Blocks) : Steady w b (silenceExpired v p b) :=
  .ite ((((setPeers_quiet _ b).trans (raise_quiet _ _)).trans (orphanCheck_quiet v _)).steady.trans
    (catchUpAbsent_steady v w p _)) (.refl w b)

theorem parkExpired_steady (v : View) (b : Blocks) : Steady v b (parkExpired v b) := by
  unfold parkExpired
  split
  · split
    · next hs => exact park_steady v b (by simpa using hs)
    · exact .refl v b
  · exact .refl v b

/-- A timer of the Catch-up Unit that runs says that an attempt is under way. -/
theorem timerExpired_steady (v w : View) (c : AttemptCause) (b : Blocks)
    (hp : QueueOk w b.lane → b.cu.phase ≠ .none) : Steady w b (failAttempt v c b) :=
  ⟨failAttempt_keeps v c b, fun h => failAttempt_ok v w c b (h.fit.mayAttempt (hp h))⟩

theorem answerExpired_steady (v w : View) (b : Blocks) : Steady w b (answerExpired v b) := by
  unfold answerExpired
  split
  · next n hn =>
    exact timerExpired_steady v w _ b fun h => (h.fit.timers.answer (Option.isSome_of_eq_some hn)).trans_ne (by decide)
  · exact .refl w b

theorem snapshotExpired_steady (v w : View) (b : Blocks) : Steady w b (snapshotExpired v b) := by
  unfold snapshotExpired
  split
  · next n hn =>
    exact timerExpired_steady v w _ b fun h => (h.fit.timers.snapshot (Option.isSome_of_eq_some hn)).trans_ne (by decide)
  · exact .refl w b

theorem retryExpired_steady (v w : View) (b : Blocks) : Steady w b (retryExpired v b) := by
  unfold retryExpired
  split
  · next n hn =>
    refine ⟨beginAttempt_keeps v b, fun h => ?_⟩
    have hp : b.cu.phase = .retryWait := h.fit.timers.retry (Option.isSome_of_eq_some hn)
    exact beginAttempt_ok v w b (h.fit.mayAttempt (hp.trans_ne (by decide))) (hp.trans_ne (by decide))
  · exact .refl w b

theorem deferExpired_steady (w : View) (b : Blocks) : Steady w b (deferExpired b) := by
  unfold deferExpired
  split
  · next n r hn _ =>
    refine Steady.trans (b := { b with cu := { b.cu with phase := .requesting, deferTimer := none } })
      ⟨⟨id, id, id⟩, fun h => ?_⟩ (enqueueReq_quiet r _).steady
    have hf := h.fit
    have hp : b.cu.phase = .deferred := hf.timers.defer (Option.isSome_of_eq_some hn)
    obtain ⟨hjoining, hlisten⟩ := hf.joining_of_phase (hp.trans_ne (by decide))
    obtain ⟨_, _, hsnapshot, hretry⟩ := hf.timers.stopped
    have hsn : b.cu.snapshotTimer = none := hsnapshot (hp.trans_ne (by decide))
    have hre : b.cu.retryTimer = none := hretry (hp.trans_ne (by decide))
    exact Lane.Fit.ok_of_phase (l := { b.lane with cu := { b.lane.cu with phase := .requesting, deferTimer := none } })
      ⟨hf.distinct, fun x lot k hx hb => ⟨(hf.bid x lot k hx hb).1, by simp⟩, hf.buffered,
        fun hs => absurd hjoining hs, fun hl => by simp [hlisten] at hl,
        ⟨fun _ => rfl, fun k => by simp at k, fun k => by simp [Blocks.lane, hsn] at k,
          fun k => by simp [Blocks.lane, hre] at k⟩⟩ (by simp)
  · exact .refl w b

theorem deferenceExpired_quiet (v : View) (lot k : Nat) (b : Blocks) : Quiet b (deferenceExpired v lot k b) :=
  .ite ((stopDeference_quiet lot k b).trans (.ite (offer_quiet ..) (.refl _))) (.refl b)

end Sys2Proof.Machine
end

section
/-! The requests and the Cell Line (chapter 11): what every request keeps of the floor, of the stores and of the Dispatch
Queue. -/

namespace Sys2Proof.Machine

/-! ### Requests that act on the blocks alone -/

theorem enqueueHost_steady (v : View) (body : FrameBody) (o : Owner) (b : Blocks) :
    Steady v b (enqueueHost body o b).2 := by
  unfold enqueueHost
  split
  · next room => exact ((Quiet.refl b).offer_host (fun _ => room) body allStations o true).steady
  · exact .refl v b

theorem joinRequest_steady (v w : View) (b : Blocks) : Steady w b (joinRequest v b).2 := by
  unfold joinRequest
  split
  · exact .refl w b
  · next hs =>
    have hoffline : b.station = .offline := by simpa using hs
    split
    · exact .refl w b
    · exact listen_steady v w b (by rw [hoffline]; decide)

theorem beginLeave_quiet (b : Blocks) : Quiet b (beginLeave b) :=
  (((setLeaving_quiet true b).trans (markDue_quiet _)).trans ((withdrawAll_quiet _ _).trans (withdrawAll_quiet _ _))).trans
    (setCedes_quiet .leave (by decide) _ _)

theorem leaveRequest_quiet (v : View) (b : Blocks) : Quiet b (leaveRequest v b).2 := by
  unfold leaveRequest
  split
  · exact .refl b
  · split
    · exact .refl b
    · split
      · exact .refl b
      · exact beginLeave_quiet b

theorem rejoinRequest_steady (v w : View) (b : Blocks) : Steady w b (rejoinRequest v b).2 := by
  unfold rejoinRequest
  split
  · next hs => exact listen_steady v w b (hs.trans_ne (by decide))
  · next hs =>
    have henter := (enterState_enters v .joining { b with pu := { b.pu with conflictRaised := false } }).quiet
      (abandonLeave_quiet .badState _)
    have hset : Quiet b { b with pu := { b.pu with conflictRaised := false } } := ⟨⟨id, id, id⟩, rfl⟩
    refine ⟨(hset.sound.trans henter.sound).trans (startCatchUp_keeps v _), fun h => ?_⟩
    have hlisten : b.pu.listenTimer = none := h.fit.listen_none (congrArg isWorking hs)
    refine startCatchUp_ok v w _ (mayAttempt_of_enters henter h.fit hlisten) ?_
    exact (congrArg (fun l : Lane => l.cu.phase) henter.lane).trans (h.fit.phase_none (hs.trans_ne (by decide)))
  · exact .refl w b

theorem statusRequest_quiet (v : View) (b : Blocks) : Quiet b (statusRequest v b).2 :=
  ⟨⟨fun ⟨hlc, hjunk, hbuffer, hrefusals, hfifo, hdiscards, _, hnotices⟩ =>
    ⟨hlc, hjunk, hbuffer, hrefusals, hfifo, hdiscards, Nat.zero_le _, hnotices⟩, id, id⟩, rfl⟩

theorem enqueueHold_quiet_host (v : View) (t : HoldTarget) (l : Level) (b : Blocks) (room : b.lc.hostRoom = true) :
    Quiet b (enqueueHold v .cli true t l .host b) :=
  (setSerial_quiet (nextSerial v b + 1) b).offer_host (fun _ => room) _ _ _ _

theorem placeHoldRequest_quiet (v : View) (scope : Nat) (t : BitVec 32) (level : Nat) (b : Blocks) :
    Quiet b (placeHoldRequest v scope t level b).2 := by
  have hchecked : ∀ t l, Quiet b (placeHoldChecked v t l b).2 := fun t l => by
    unfold placeHoldChecked
    split
    · exact .refl b
    · split
      · exact .refl b
      · split
        · exact .refl b
        · split
          · next room => exact enqueueHold_quiet_host v t l b room
          · exact .refl b
  unfold placeHoldRequest
  split
  · exact .refl b
  · split
    · exact .refl b
    · split
      · exact .refl b
      · split
        · exact .refl b
        · exact hchecked _ _

theorem liftHoldRequest_steady (v w : View) (o sn : Nat) (b : Blocks) : Steady w b (liftHoldRequest v o sn b).2 := by
  unfold liftHoldRequest
  simp only
  split
  · exact .refl w b
  · split
    · exact .refl w b
    · split
      · exact .refl w b
      · split
        · exact .refl w b
        · exact enqueueHost_steady w _ _ b

theorem postLotRequest_steady (v w : View) (f : LotFields) (b : Blocks) : Steady w b (postLotRequest v f b).2 := by
  unfold postLotRequest
  split
  · exact .refl w b
  · split
    · exact .refl w b
    · split
      · exact .refl w b
      · split
        · exact .refl w b
        · exact enqueueHost_steady w _ _ b

theorem withdrawLotRequest_steady (v w : View) (lot : Nat) (b : Blocks) :
    Steady w b (withdrawLotRequest v lot b).2 := by
  unfold withdrawLotRequest
  split
  · exact .refl w b
  · split
    · exact .refl w b
    · split
      · exact .refl w b
      · exact enqueueHost_steady w _ _ b

theorem resumeLotRequest_steady (v w : View) (lot : Nat) (b : Blocks) : Steady w b (resumeLotRequest v lot b).2 := by
  unfold resumeLotRequest
  split
  · exact .refl w b
  · split
    · exact .refl w b
    · exact enqueueHost_steady w _ _ b

theorem cedeRequest_quiet (lot k : Nat) (b : Blocks) : Quiet b (cedeRequest lot k b).2 := by
  unfold cedeRequest
  split
  · exact .refl b
  · split
    · exact .refl b
    · split
      · exact .refl b
      · split
        · exact (updateEntry_quiet lot k (fun e => { e with cede := some .host }) (fun _ => rfl) b).trans
            (dueIfReady_quiet _ _)
        · split
          · next room => exact setCede_quiet_room .host lot k b fun _ => room
          · exact .refl b

theorem clearRefusalsRequest_quiet (b : Blocks) : Quiet b (clearRefusalsRequest b).2 :=
  ⟨⟨fun ⟨hlc, hjunk, hbuffer, _, hcli⟩ => ⟨hlc, hjunk, hbuffer, Nat.zero_le _, hcli⟩, id, id⟩, rfl⟩

theorem kitAddRequest_steady (v w : View) (k f l : Nat) (b : Blocks) : Steady w b (kitAddRequest v k f l b).2 := by
  unfold kitAddRequest
  split
  · exact .refl w b
  · split
    · exact .refl w b
    · split
      · exact .refl w b
      · split
        · exact .refl w b
        · exact enqueueHost_steady w _ _ b

theorem kitMoveRequest_steady (v w : View) (k : Nat) (p : KitRec → Bool) (body : FrameBody) (b : Blocks) :
    Steady w b (kitMoveRequest v k p body b).2 := by
  unfold kitMoveRequest
  split
  · exact .refl w b
  · split
    · exact .refl w b
    · split
      · exact .refl w b
      · split
        · exact enqueueHost_steady w _ _ b
        · exact .refl w b

theorem clearTrip_quiet (b : Blocks) : Quiet b (clearTrip b) := setTripIw_quiet 0 b

theorem requestAfterFitting_quiet (v : View) (k : Nat) (b : Blocks) : Quiet b (requestAfterFitting v k b) := by
  unfold requestAfterFitting
  split
  · exact .ite (endRequest_quiet b) (needRemoval_quiet _ k b)
  · exact .refl b

theorem kitFittedRequest_quiet (v : View) (k : Nat) (b : Blocks) : Quiet b (kitFittedRequest v k b).2 := by
  unfold kitFittedRequest
  split
  · exact .refl b
  · split
    · exact .refl b
    · split
      · split
        · exact clearTrip_quiet b
        · exact .refl b
      · exact ((((setFitted_quiet _ b).trans (dropGive_quiet k _)).trans (withdrawFrame_quiet _ _)).trans
          (clearTrip_quiet _)).trans (requestAfterFitting_quiet v k _)

theorem requestAfterRemoval_quiet (v : View) (b : Blocks) : Quiet b (requestAfterRemoval v b) := by
  unfold requestAfterRemoval
  split
  · exact .ite (chooseKit_quiet v _ b) (.refl b)
  · exact .refl b

theorem kitRemovedRequest_quiet (v : View) (k : Nat) (b : Blocks) : Quiet b (kitRemovedRequest v k b).2 := by
  unfold kitRemovedRequest
  split
  · exact .refl b
  · split
    · exact .refl b
    · split
      · exact .refl b
      · exact (Quiet.trans (Quiet.ite (setFitted_quiet none b) (.refl b))
          (.ite (giveBack_quiet k _) (.refl _))).trans (requestAfterRemoval_quiet v _)

theorem bandChangeRequest_quiet (v : View) (band : Nat) (b : Blocks) : Quiet b (bandChangeRequest v band b).2 := by
  unfold bandChangeRequest
  split
  · exact .refl b
  · split
    · exact .refl b
    · split
      · exact .refl b
      · exact setBand_quiet _ _ b

theorem bandReadyRequest_quiet (band : Nat) (b : Blocks) : Quiet b (bandReadyRequest band b).2 := by
  unfold bandReadyRequest
  split
  · exact .refl b
  · split
    · exact .refl b
    · split
      · exact .refl b
      · exact setBand_quiet _ _ b

theorem dropMask_quiet (b : Blocks) : Quiet b (dropMask b) := by
  unfold dropMask
  split
  · next m hi =>
    refine .of_iw fun h => ?_
    have hgo := h.go_false (by simp [hi])
    exact goOverTest_of_released hgo (h.2 hgo)
  · exact .refl b

theorem endStepRequest_quiet (v : View) (lot k : Nat) (b : Blocks) : Quiet b (endStepRequest v lot k b).2 := by
  unfold endStepRequest
  split
  · exact .refl b
  · split
    · split
      · have hpending := setCounters_quiet { b.iw.counters with endPending := true } b
        simp only
        split
        · exact hpending
        · exact (hpending.trans (dropMask_quiet _)).trans (endStep_quiet v lot _)
      · exact .refl b
    · exact .refl b

theorem restoreSite_quiet (n : Nat) (b : Blocks) : Quiet b (restoreSite n b) :=
  .ite (.ite (setSite_quiet n _ b) ((setSite_quiet n _ b).trans (raise_quiet _ _))) (.refl b)

theorem siteRestoreRequest_quiet (v : View) (n : Nat) (b : Blocks) : Quiet b (siteRestoreRequest v n b).2 := by
  unfold siteRestoreRequest
  split
  · exact .refl b
  · exact restoreSite_quiet n b

/-- Every request that acts on the blocks alone keeps what is sound and the Dispatch Queue. -/
theorem blocksRequest_steady (v w : View) (r : Request) (b : Blocks) : Steady w b (blocksRequest v r b).2 := by
  cases r with
  | join => exact joinRequest_steady v w b
  | leave => exact (leaveRequest_quiet v b).steady
  | rejoin => exact rejoinRequest_steady v w b
  | reset => exact Quiet.steady ⟨⟨id, id, id⟩, rfl⟩
  | status => exact (statusRequest_quiet v b).steady
  | postLot f => exact postLotRequest_steady v w f b
  | withdrawLot lot => exact withdrawLotRequest_steady v w lot b
  | resumeLot lot => exact resumeLotRequest_steady v w lot b
  | cede lot k => exact (cedeRequest_quiet lot k b).steady
  | clearRefusals => exact (clearRefusalsRequest_quiet b).steady
  | placeHold s t l => exact (placeHoldRequest_quiet v s t l b).steady
  | liftHold o sn => exact liftHoldRequest_steady v w o sn b
  | kitAdd k f l => exact kitAddRequest_steady v w k f l b
  | kitFound k => exact kitMoveRequest_steady v w k _ _ b
  | kitServiced k => exact kitMoveRequest_steady v w k _ _ b
  | kitRetire k => exact kitMoveRequest_steady v w k _ _ b
  | kitFitted k => exact (kitFittedRequest_quiet v k b).steady
  | kitRemoved k => exact (kitRemovedRequest_quiet v k b).steady
  | bandChange x => exact (bandChangeRequest_quiet v x b).steady
  | bandReady x => exact (bandReadyRequest_quiet x b).steady
  | endStep lot k => exact (endStepRequest_quiet v lot k b).steady
  | siteRestore n => exact (siteRestoreRequest_quiet v n b).steady
  | _ => exact .refl w b

/-! ### What a request keeps of the state -/

/-- The queue of commands, the station ID and the floor state stay (R20, R37, R38), with what the blocks keep; the local
mark of R42 and the configuration may change. -/
structure Serves (s t : State) : Prop where
  pending : t.pending = s.pending
  stationId : t.stationId = s.stationId
  count : t.re.count = s.re.count
  digest : t.re.digest = s.re.digest
  canonical : t.re.replica.canonical = s.re.replica.canonical
  replica : s.re.replica.Sound → t.re.replica.Sound
  blocks : Keeps s.blocks t.blocks
  queue : s.QueueOk → t.QueueOk

theorem Serves.refl (s : State) : Serves s s := ⟨rfl, rfl, rfl, rfl, rfl, id, .refl _, id⟩

theorem Serves.trans {s t u : State} (h : Serves s t) (k : Serves t u) : Serves s u :=
  ⟨k.pending.trans h.pending, k.stationId.trans h.stationId, k.count.trans h.count, k.digest.trans h.digest,
    k.canonical.trans h.canonical, fun x => k.replica (h.replica x), h.blocks.trans k.blocks,
    fun x => k.queue (h.queue x)⟩

/-- The digest of a sound replica is still the replica's. -/
theorem Serves.floorOk {s t : State} (h : Serves s t) (hs : s.FloorOk) : t.FloorOk := by
  refine ⟨h.replica hs.1, ?_⟩
  rw [h.digest, hs.2, Replica.digest, Replica.digest, h.canonical]

theorem mapBlocks_serves {s : State} {f : View → Blocks → Blocks} (h : Steady s.view s.blocks (f s.view s.blocks)) :
    Serves s (s.mapBlocks f) :=
  ⟨rfl, rfl, rfl, rfl, rfl, id, h.sound, mapBlocks_queueOk h⟩

theorem finish_serves (s : State) : Serves s s.finish := mapBlocks_serves (finish_steady s.view s.view s.blocks)

theorem setConfig_serves (c : ConfigRecord) (s : State) : Serves s { s with config := c } :=
  ⟨rfl, rfl, rfl, rfl, rfl, id, .refl _, fun h => ⟨h.fit, h.own⟩⟩

theorem configureRequest_serves (f : ConfigFields) (s : State) : Serves s (configureRequest f s).2 := by
  unfold configureRequest
  split
  · exact .refl s
  · split
    · exact .refl s
    · exact setConfig_serves _ s

/-- The local mark of R42 is no part of a lot's floor state. -/
theorem confirmLot_same (l : LotRec) :
    (confirmLot l).lot = l.lot ∧ lotBytes (confirmLot l) = lotBytes l ∧ (confirmLot l).plan = l.plan := by
  unfold confirmLot
  split <;> exact ⟨rfl, rfl, rfl⟩

theorem confirm_canonical (r : Replica) (lot : Nat) : (r.updateLot lot confirmLot).canonical = r.canonical := by
  have hlots : (r.updateLot lot confirmLot).lots.flatMap lotBytes = r.lots.flatMap lotBytes := by
    simp only [Replica.updateLot, List.flatMap_map]
    refine List.flatMap_congr fun l _ => ?_
    split
    · exact (confirmLot_same l).2.1
    · rfl
  simp only [Replica.canonical, hlots]
  rfl

theorem confirm_step? (r : Replica) (lot n k : Nat) : (r.updateLot lot confirmLot).step? n k = r.step? n k := by
  simp only [Replica.step?, updateLot_lot? r lot n confirmLot fun l => (confirmLot_same l).1]
  cases r.lot? n with
  | none => rfl
  | some l =>
    simp only [Option.map_some, Option.bind_some]
    split
    · simp only [LotRec.step?, (confirmLot_same l).2.2]
    · rfl

theorem confirm_serves (lot : Nat) (s : State) :
    Serves s { s with re := { s.re with replica := s.re.replica.updateLot lot confirmLot } } := by
  refine ⟨rfl, rfl, rfl, rfl, confirm_canonical _ lot, fun h => h.updateLot lot _ fun l => (confirmLot_same l).1, .refl _,
    fun h => ⟨h.fit, fun hm k hk => ?_⟩⟩
  have hown := h.own hm k hk
  simp only [View.shows, State.view, confirm_step?] at hown ⊢
  exact hown

theorem releaseConfirmRequest_serves (lot : Nat) (s : State) : Serves s (releaseConfirmRequest lot s).2 := by
  unfold releaseConfirmRequest
  split
  · exact .refl s
  · split
    · exact .refl s
    · split
      · exact .refl s
      · refine (confirm_serves lot s).trans ?_
        exact mapBlocks_serves (f := fun v b => releaseCheck v lot b) (releaseCheck_quiet _ lot _).steady

theorem handle_serves (r : Request) (s : State) : Serves s (handle r s).2 := by
  unfold handle
  split
  · exact configureRequest_serves _ s
  · exact releaseConfirmRequest_serves _ s
  · exact mapBlocks_serves (s := s) (f := fun v b => (blocksRequest v r b).2) (blocksRequest_steady _ _ r _)

/-! ### The Cell Line (R172 to R174) -/

/-- The Cell Line Interface replaced by a bounded one. -/
theorem setCli_quiet {c : CellLineInterface} {b : Blocks} (h : b.cli.Bounded → c.Bounded) : Quiet b (setCli c b) :=
  ⟨⟨fun ⟨hlc, hjunk, hbuffer, hrefusals, hcli⟩ => ⟨hlc, hjunk, hbuffer, hrefusals, h hcli⟩, id, id⟩, rfl⟩

theorem wake_steady (v : View) (b : Blocks) : Steady v b (wake v b) :=
  .ite ((unpark_steady v b).trans (settle_quiet v _).steady) (Quiet.steady ⟨⟨id, id, id⟩, rfl⟩)

theorem reportDiscard_quiet (r : DiscardReport) (b : Blocks) : Quiet b (reportDiscard r b) := by
  unfold reportDiscard
  split
  · next room =>
    exact setCli_quiet fun ⟨hfifo, _, hunreported, hnotices⟩ =>
      ⟨hfifo, by simpa using Nat.succ_le_of_lt room, hunreported, hnotices⟩
  · exact setCli_quiet fun ⟨hfifo, hdiscards, _, hnotices⟩ => ⟨hfifo, hdiscards, Nat.min_le_left _ _, hnotices⟩

theorem offerRequest_quiet (r : Request) (b : Blocks) : Quiet b (offerRequest r b) := by
  unfold offerRequest
  split
  · next room =>
    exact setCli_quiet fun ⟨_, hrest⟩ => ⟨by simpa using Nat.succ_le_of_lt room, hrest⟩
  · exact reportDiscard_quiet _ b

theorem takeRequest_serves (s : State) : Serves s (takeRequest s) := by
  unfold takeRequest
  split
  · next r rest hfifo =>
    split
    · have hdrop : Quiet s.blocks (setCli { s.blocks.cli with fifo := rest } s.blocks) := setCli_quiet fun ⟨h, hrest⟩ => by
        rw [hfifo] at h
        exact ⟨(Nat.le_succ _).trans h, hrest⟩
      have hwake := mapBlocks_serves (s := s) (f := fun v b => wake v (setCli { b.cli with fifo := rest } b))
        (hdrop.steady.trans (wake_steady s.view _))
      refine (hwake.trans (handle_serves r _)).trans ?_
      exact mapBlocks_serves (f := fun _ b => setCli { b.cli with resp := _ } b)
        (Quiet.steady ⟨⟨id, id, id⟩, rfl⟩)
    · exact .refl s
  · exact .refl s

theorem request_serves (r : Request) (s : State) : Serves s (request r s) :=
  ((mapBlocks_serves (offerRequest_quiet r s.blocks).steady).trans (takeRequest_serves _)).trans (finish_serves _)

theorem setCellRx_serves (bs : List Byte) (s : State) : Serves s (setCellRx bs s) :=
  mapBlocks_serves (f := fun _ b => setCli { b.cli with rx := bs } b)
    (setCli_quiet (c := { s.blocks.cli with rx := bs }) id).steady

theorem discard_serves (r : DiscardReport) (s : State) : Serves s (s.mapBlocks fun _ b => reportDiscard r b) :=
  mapBlocks_serves (reportDiscard_quiet r _).steady

theorem receiveCell_serves (n : Nat) : ∀ (bs : List Byte) (s : State), Serves s (receiveCell n bs s) := by
  induction n with
  | zero => exact setCellRx_serves
  | succ n ih =>
    intro bs s
    unfold receiveCell
    split
    · exact setCellRx_serves _ s
    · exact ih _ s
    · exact (discard_serves _ s).trans (ih _ _)
    · exact (request_serves _ s).trans (ih _ _)

theorem dropCellPartial_serves (n : Nat) : ∀ s : State, Serves s (dropCellPartial n s) := by
  induction n with
  | zero => exact .refl
  | succ n ih =>
    intro s
    unfold dropCellPartial
    split
    · exact .refl s
    · exact (((setCellRx_serves [] s).trans (discard_serves _ _)).trans (receiveCell_serves _ _ _)).trans (ih _)

theorem nextMessage_bounded {c d : CellLineInterface} {m : CellMsg} (h : nextMessage c = some (m, d)) (hc : c.Bounded) :
    d.Bounded := by
  obtain ⟨hfifo, hdiscards, hunreported, hnotices⟩ := hc
  unfold nextMessage at h
  split at h
  · cases h
    exact ⟨hfifo, hdiscards, hunreported, hnotices⟩
  · split at h
    · next heq =>
      cases h
      rw [heq] at hdiscards
      exact ⟨hfifo, (Nat.le_succ _).trans hdiscards, hunreported, hnotices⟩
    · split at h
      · next heq =>
        cases h
        rw [heq] at hnotices
        exact ⟨hfifo, hdiscards, hunreported, (Nat.le_succ _).trans hnotices⟩
      · cases h

theorem cellTransmit_serves (s : State) : Serves s (cellTransmit s) := by
  unfold cellTransmit
  split
  · next m c hm =>
    have hbounded : s.blocks.cli.Bounded → c.Bounded := nextMessage_bounded hm
    have hsend := mapBlocks_serves (s := s) (f := fun _ b => setCli { c with tx := some m } b)
      (Quiet.steady (setCli_quiet (c := { c with tx := some m }) hbounded))
    exact (hsend.trans (takeRequest_serves _)).trans (finish_serves _)
  · exact .refl s

/-! ### The commands -/

/-- A command of the Cell Line serves a request, bytes or the transmitter. -/
theorem exec_cellLine (c : Instr) (s : State) (h : ofCellLine c = true) : ∃ t, exec c s = .next t ∧ Serves s t := by
  cases c
  case cellLineMessage bs => exact ⟨_, rfl, receiveCell_serves _ _ s⟩
  case cellByteTimeout => exact ⟨_, rfl, dropCellPartial_serves _ s⟩
  case cellLineTransmit => exact ⟨_, rfl, cellTransmit_serves s⟩
  all_goals first
    | exact ⟨_, rfl, request_serves _ s⟩
    | cases h

/-- The blocks changed by an operation and by the end of the command. -/
theorem onBlocks_steady {v : View} {b c : Blocks} (h : Steady v b c) : Steady v b (finish v c) :=
  h.trans (finish_steady v v c)

/-- Any other command but a reset and FRAME_END changes the blocks alone. -/
theorem exec_blocks (c : Instr) (s : State) (hc : ofCellLine c = false) (hr : isReset c = false)
    (hf : ∀ r, c ≠ .frameEnd r) :
    ∃ f : View → Blocks → Blocks, exec c s = .next (s.mapBlocks f) ∧ Steady s.view s.blocks (f s.view s.blocks) := by
  cases c
  case transmitStart => exact ⟨_, rfl, transmitStart_steady _ _⟩
  case arbitrationLost => exact ⟨_, rfl, arbitrationLost_steady _ _ _⟩
  case transmitFault => exact ⟨_, rfl, transmitFault_steady _ _ _⟩
  case frameEnd r => exact absurd rfl (hf r)
  case listenTimerExpiry => exact ⟨fun v b => finish v _, rfl, onBlocks_steady (listenExpired_steady _ _)⟩
  case beaconTimerExpiry => exact ⟨fun v b => finish v _, rfl, onBlocks_steady (beaconExpired_quiet _ _).steady⟩
  case silenceTimerExpiry p => exact ⟨fun v b => finish v _, rfl, onBlocks_steady (silenceExpired_steady _ _ p _)⟩
  case parkTimerExpiry => exact ⟨fun v b => finish v _, rfl, onBlocks_steady (parkExpired_steady _ _)⟩
  case answerTimerExpiry => exact ⟨fun v b => finish v _, rfl, onBlocks_steady (answerExpired_steady _ _ _)⟩
  case deferTimerExpiry => exact ⟨fun v b => finish v _, rfl, onBlocks_steady (deferExpired_steady _ _)⟩
  case snapshotTimerExpiry => exact ⟨fun v b => finish v _, rfl, onBlocks_steady (snapshotExpired_steady _ _ _)⟩
  case retryTimerExpiry => exact ⟨fun v b => finish v _, rfl, onBlocks_steady (retryExpired_steady _ _ _)⟩
  case deferenceTimerExpiry l k => exact ⟨fun v b => finish v _, rfl, onBlocks_steady (deferenceExpired_quiet _ l k _).steady⟩
  case blockTimeout => exact ⟨fun v b => finish v _, rfl, onBlocks_steady (blockExpired_quiet _ _).steady⟩
  case verifyTimeout => exact ⟨fun v b => finish v _, rfl, onBlocks_steady (verifyExpired_quiet _ _).steady⟩
  case swapTimeout => exact ⟨fun v b => finish v _, rfl, onBlocks_steady (swapExpired_quiet _).steady⟩
  case purgeTimeout => exact ⟨fun v b => finish v _, rfl, onBlocks_steady (purgeExpired_quiet _).steady⟩
  case blockOk x n => exact ⟨fun v b => finish v _, rfl, onBlocks_steady (blockOk_quiet _ x n _).steady⟩
  case blockBad x n y => exact ⟨fun v b => finish v _, rfl, onBlocks_steady (blockBad_quiet _ x n y _).steady⟩
  case loadEnd x => exact ⟨fun v b => finish v _, rfl, onBlocks_steady (loadEnd_quiet _ x _).steady⟩
  case verifyResult x m => exact ⟨fun v b => finish v _, rfl, onBlocks_steady (verifyResult_quiet _ x m _).steady⟩
  case swapDone => exact ⟨fun v b => finish v _, rfl, onBlocks_steady (swapDone_quiet _).steady⟩
  case purgeDone x => exact ⟨fun v b => finish v _, rfl, onBlocks_steady (purgeDone_quiet x _).steady⟩
  case testerMessageDiscard bs => exact ⟨fun v b => finish v _, rfl, onBlocks_steady (testerBytes_steady _ _ bs _)⟩
  case testerByteTimeout => exact ⟨fun v b => finish v _, rfl, onBlocks_steady (dropTesterPartial_steady _ _ _ _)⟩
  case seat m => exact ⟨fun v b => finish v _, rfl, onBlocks_steady (seat_quiet _ m _).steady⟩
  case verdict bins => exact ⟨fun v b => finish v _, rfl, onBlocks_steady (verdict_quiet _ bins _).steady⟩
  case insertionTimeout => exact ⟨fun v b => finish v _, rfl, onBlocks_steady (insertionTimeout_quiet _ _).steady⟩
  case powerOnReset => cases hr
  case pinReset => cases hr
  case softReset => cases hr
  all_goals cases hc

end Sys2Proof.Machine
end

section
/-! The invariants of every step: the replica, the stores and the Dispatch Queue (O6, O8, O23), and what a command
leaves alone of the floor (O3, O9). -/

namespace Sys2Proof.Machine

/-! ### What every command keeps -/

/-- The sound replica, the stores, GO over a test and the Dispatch Queue. -/
structure Preserves (s t : State) : Prop where
  stores : s.blocks.Stores → t.blocks.Stores
  floor : copySound s.blocks.cu.copy = true → s.FloorOk → t.FloorOk
  copy : copySound s.blocks.cu.copy = true → copySound t.blocks.cu.copy = true
  go : s.blocks.iw.GoOverTest → t.blocks.iw.GoOverTest
  queue : s.QueueOk → t.QueueOk

theorem Preserves.refl (s : State) : Preserves s s := ⟨id, fun _ => id, id, id, id⟩

theorem Carries.preserves {s t : State} (h : Carries s t) (queue : s.QueueOk → t.QueueOk) : Preserves s t :=
  ⟨h.blocks.stores, h.floor, h.blocks.copy, h.blocks.go, queue⟩

theorem Serves.preserves {s t : State} (h : Serves s t) : Preserves s t :=
  ⟨h.blocks.stores, fun _ => h.floorOk, h.blocks.copy, h.blocks.go, h.queue⟩

theorem mapBlocks_preserves {s : State} {f : View → Blocks → Blocks} (h : Steady s.view s.blocks (f s.view s.blocks)) :
    Preserves s (s.mapBlocks f) :=
  (mapBlocks_carries h.sound).preserves (mapBlocks_queueOk h)

theorem frameEnd_preserves (r : Reception) (s : State) : Preserves s (frameEnd r s) :=
  (frameEnd_carries r s).preserves (frameEnd_queueOk r s)

/-! ### The resets -/

theorem emptyDigest_eq : emptyDigest = Replica.empty.digest := by decide

theorem reset_stores (c : ResetCause) (junk un : Nat) (sites : List SiteRec) (hjunk : junk ≤ 65535) (hun : un ≤ 65535) :
    (Blocks.reset c junk un sites).Stores :=
  ⟨⟨Nat.zero_le _, Nat.zero_le _, fun _ he => absurd he List.not_mem_nil⟩, hjunk, Nat.zero_le _, Nat.zero_le _,
    Nat.zero_le _, Nat.zero_le _, hun, (by decide : 1 ≤ Config.maxNotices)⟩

/-- A reset leaves an empty replica and an OFFLINE station without entries; of the stores it keeps the two counts. -/
theorem afterReset_preserves (s : State) (straps : BitVec 6) (cfg : ConfigRecord) (c : ResetCause) (junk un : Nat)
    (sites : List SiteRec) (hjunk : s.blocks.Stores → junk ≤ 65535) (hun : s.blocks.Stores → un ≤ 65535) :
    Preserves s (afterReset s straps cfg (.reset c junk un sites)) where
  stores h := reset_stores c junk un sites (hjunk h) (hun h)
  floor _ _ := ⟨Replica.empty_sound, emptyDigest_eq⟩
  copy _ := rfl
  go _ := ⟨fun h => absurd h Bool.false_ne_true, fun _ => rfl⟩
  queue _ := (offline_fit none).ok rfl

theorem exec_reset (c : Instr) (s : State) (h : isReset c = true) :
    ∃ t, exec c s = .next t ∧ t.pending = s.pending ∧ Preserves s t := by
  cases c
  case powerOnReset straps =>
    exact ⟨_, rfl, rfl, afterReset_preserves s straps _ _ _ _ _ (fun _ => Nat.zero_le _) fun _ => Nat.zero_le _⟩
  case pinReset straps =>
    exact ⟨_, rfl, rfl, afterReset_preserves s straps _ _ _ _ _ (fun _ => Nat.zero_le _) fun _ => Nat.zero_le _⟩
  case softReset straps =>
    refine ⟨softResetState straps s, rfl, ?_⟩
    unfold softResetState
    split
    · exact ⟨rfl, afterReset_preserves s straps _ _ _ _ _ (fun ⟨_, hjunk, _⟩ => hjunk)
        fun ⟨_, _, _, _, _, _, hunreported, _⟩ => hunreported⟩
    · exact ⟨rfl, .refl s⟩
  all_goals cases h

/-! ### Every command and every step -/

theorem exec_preserves (c : Instr) (s : State) : ∃ t, exec c s = .next t ∧ t.pending = s.pending ∧ Preserves s t := by
  by_cases hr : isReset c = true
  · exact exec_reset c s hr
  · by_cases hc : ofCellLine c = true
    · obtain ⟨t, ht, h⟩ := exec_cellLine c s hc
      exact ⟨t, ht, h.pending, h.preserves⟩
    · by_cases hf : ∃ r, c = .frameEnd r
      · obtain ⟨r, rfl⟩ := hf
        exact ⟨_, rfl, (frameEnd_carries r s).pending, frameEnd_preserves r s⟩
      · obtain ⟨f, ht, h⟩ := exec_blocks c s (by simpa using hc) (by simpa using hr) (by simpa using hf)
        exact ⟨_, ht, rfl, mapBlocks_preserves h⟩

theorem down_isSome (t : Option Nat) : (down t).isSome = t.isSome := by cases t <;> rfl

/-- A passing millisecond changes no timer's running. -/
theorem tick_preserves (s : State) : Preserves s (tick s) where
  stores := id
  floor _ := id
  copy := id
  go := fun ⟨hgo, hen⟩ => by
    refine ⟨fun h => ?_, hen⟩
    obtain ⟨hgate, n, hn⟩ := hgo h
    exact ⟨hgate, n - 1, by simp only [tick, hn, tickInsertion]⟩
  queue := fun ⟨hfit, hown⟩ => by
    obtain ⟨distinct, bid, buffered, joining, listening, ⟨answer, defer, snapshot, retry⟩⟩ := hfit
    refine ⟨⟨distinct, bid, buffered, joining, fun h => listening ((down_isSome _).symm.trans h),
      ⟨fun h => answer ((down_isSome _).symm.trans h), fun h => defer ((down_isSome _).symm.trans h),
        fun h => snapshot ((down_isSome _).symm.trans h), fun h => retry ((down_isSome _).symm.trans h)⟩⟩, hown⟩

theorem setPending_preserves (s : State) (p : List Instr) : Preserves s { s with pending := p } :=
  ⟨id, fun _ => id, id, id, id⟩

theorem Preserves.trans {s t u : State} (h : Preserves s t) (k : Preserves t u) : Preserves s u :=
  ⟨fun x => k.stores (h.stores x), fun c x => k.floor (h.copy c) (h.floor c x), fun x => k.copy (h.copy x),
    fun x => k.go (h.go x), fun x => k.queue (h.queue x)⟩

theorem step_front {c : Instr} {rest : List Instr} {s : State} (h : s.pending = c :: rest) :
    step s = exec c { s with pending := rest } := by
  simp only [step, h]

theorem step_empty {s : State} (h : s.pending = []) : step s = .next (tick s) := by
  simp only [step, h]

theorem step_preserves {s t : State} (h : step s = .next t) : Preserves s t := by
  cases hp : s.pending with
  | nil =>
    rw [step_empty hp] at h
    cases h
    exact tick_preserves s
  | cons c rest =>
    rw [step_front hp] at h
    obtain ⟨t', ht, _, hkeeps⟩ := exec_preserves c { s with pending := rest }
    rw [ht] at h
    cases h
    exact (setPending_preserves s rest).trans hkeeps

/-! ### The invariants as the lemmas see them -/

theorem replicaInv_iff (s : State) : s.replicaInv ↔ s.FloorOk ∧ copySound s.blocks.cu.copy = true := by
  rw [State.replicaInv, State.FloorOk, Replica.sound_iff, and_assoc]

theorem storesInv_iff (s : State) : s.storesInv ↔ s.blocks.Stores := by
  constructor
  · rintro ⟨hqueue, hshare, hwaiting, hjunk, hbuffer, hrefusals, hfifo, hdiscards, hunreported, hnotices⟩
    exact ⟨⟨hqueue, hshare, hwaiting⟩, hjunk, hbuffer, hrefusals, hfifo, hdiscards, hunreported, hnotices⟩
  · rintro ⟨⟨hqueue, hshare, hwaiting⟩, hjunk, hbuffer, hrefusals, hfifo, hdiscards, hunreported, hnotices⟩
    exact ⟨hqueue, hshare, hwaiting, hjunk, hbuffer, hrefusals, hfifo, hdiscards, hunreported, hnotices⟩

/-- Settles O6: each table keeps its bound and its order under every application, snapshot and Cell Line request, and
the digest is taken anew at each application. -/
theorem everyStepKeepsTheReplicaSound : Obligations.EveryStepKeepsTheReplicaSound := by
  intro s t hs hstep
  obtain ⟨hfloor, hcopy⟩ := (replicaInv_iff s).mp hs
  have h := step_preserves hstep
  exact (replicaInv_iff t).mpr ⟨h.floor hcopy hfloor, h.copy hcopy⟩

/-- Settles O8: every store is added to only below its bound. -/
theorem everyStepKeepsTheStoresBounded : Obligations.EveryStepKeepsTheStoresBounded := fun s t hs hstep =>
  (storesInv_iff t).mpr ((step_preserves hstep).stores ((storesInv_iff s).mp hs))

/-- Settles O23: Reconcile after every application drops the entries that are no longer the station's, and the attempt
to catch up and its timers run in JOINING alone. -/
theorem everyStepKeepsTheDispatchQueue : Obligations.EveryStepKeepsTheDispatchQueue := fun s t hs hstep =>
  (queueInv_iff t).mpr ((step_preserves hstep).queue ((queueInv_iff s).mp hs))

/-- Settles O3. -/
theorem everyCommandIsAnswered : Obligations.EveryCommandIsAnswered := fun c s => by
  obtain ⟨t, ht, hp, _⟩ := exec_preserves c s
  exact ⟨t, ht, hp⟩

/-- Settles O9: a command of the Cell Line touches the local mark of R42 and the configuration alone. -/
theorem onlyHeardFramesChangeTheFloor : Obligations.OnlyHeardFramesChangeTheFloor := by
  intro c s t hr ht
  by_cases hc : ofCellLine c = true
  · obtain ⟨t', ht', h⟩ := exec_cellLine c s hc
    obtain rfl : t' = t := by simpa using ht'.symm.trans ht
    exact ⟨h.stationId, fun hn => by simp [hc] at hn, fun _ => ⟨h.count, h.digest, h.canonical, fun hn => by simp [hc] at hn⟩⟩
  · by_cases hf : ∃ r, c = .frameEnd r
    · obtain ⟨r, rfl⟩ := hf
      have h := frameEnd_carries r s
      obtain rfl : frameEnd r s = t := by
        have hexec : exec (.frameEnd r) s = .next (frameEnd r s) := rfl
        simpa using hexec.symm.trans ht
      exact ⟨h.stationId, fun _ => h.config, fun hn => absurd rfl (hn r)⟩
    · obtain ⟨f, ht', _⟩ := exec_blocks c s (by simpa using hc) hr (by simpa using hf)
      obtain rfl : s.mapBlocks f = t := by simpa using ht'.symm.trans ht
      exact ⟨rfl, fun _ => rfl, fun _ => ⟨rfl, rfl, rfl, fun _ => rfl⟩⟩

/-- Settles O1. -/
theorem stepRunsTheFrontCommand : Obligations.StepRunsTheFrontCommand := fun _ _ _ h => step_front h

/-- Settles O2. -/
theorem emptyQueueLetsTimePass : Obligations.EmptyQueueLetsTimePass := fun s h => by
  rw [step_empty h]
  rfl

/-- Settles O4. -/
theorem resetsLeave : Obligations.ResetsLeave := by
  refine ⟨fun straps s => rfl, fun straps s => ⟨⟨_, rfl, rfl, rfl, rfl, rfl, rfl⟩, fun ha hr => ?_, fun ha => ?_⟩⟩
  · refine ⟨softResetState straps s, rfl, ?_⟩
    have hreset : softResetState straps s = afterReset s straps (if s.config.keepOnSoftReset then s.config else .default)
        (.reset .soft s.blocks.lc.junk s.blocks.cli.unreported (s.blocks.iw.sites.map keepMasks)) := by
      simp [softResetState, ha, hr]
    rw [hreset]
    exact ⟨rfl, rfl, rfl, rfl, rfl⟩
  · have hsame : softResetState straps s = s := by simp [softResetState, ha]
    exact congrArg Host.Outcome.next hsame

/-- Settles O5. -/
theorem resetSatisfiesTheInvariants : Obligations.ResetSatisfiesTheInvariants :=
  ⟨(replicaInv_iff _).mpr ⟨⟨Replica.empty_sound, emptyDigest_eq⟩, rfl⟩,
    ⟨rfl, fun h => absurd h Bool.false_ne_true, fun _ => rfl⟩,
    (storesInv_iff _).mpr (reset_stores .power 0 0 _ (Nat.zero_le _) (Nat.zero_le _)),
    (queueInv_iff _).mpr ((offline_fit none).ok rfl)⟩

end Sys2Proof.Machine
end

section
/-! The gate (O7): the end of a command brings it into line with its conditions, and what ends otherwise touches neither
the gate nor what its conditions read. -/

namespace Sys2Proof.Machine

/-- What the conditions of the gate read of the blocks, with the gate itself. -/
def Blocks.gateView (b : Blocks) : StationState × List QueueEntry × HandlerRecord × SlotRec × List SiteRec × Bool :=
  (b.station, b.du.queue, b.hr, b.le.active, b.iw.sites, b.iw.gate)

/-- The gate is open exactly while its conditions hold (R132). -/
def Blocks.Gated (v : View) (b : Blocks) : Prop := b.iw.gate = gateConditions v b

def State.Gated (s : State) : Prop := s.blocks.Gated s.view

theorem gateConditions_congr (v : View) {b c : Blocks} (station : c.station = b.station) (queue : c.du.queue = b.du.queue)
    (hr : c.hr = b.hr) (active : c.le.active = b.le.active) (sites : c.iw.sites = b.iw.sites) :
    gateConditions v c = gateConditions v b := by
  have hsites : anySiteEnabled v c.iw = anySiteEnabled v b.iw := by
    have hsite : siteEnabled v c.iw = siteEnabled v b.iw := by
      funext n
      simp only [siteEnabled, InsertionWatch.site, sites]
    rw [anySiteEnabled, anySiteEnabled, hsite]
  unfold gateConditions
  rw [station, queue, hr, active, hsites]

theorem Blocks.Gated.congr {v : View} {b c : Blocks} (h : b.Gated v) (hview : c.gateView = b.gateView) : c.Gated v := by
  simp only [gateView, Prod.mk.injEq] at hview
  obtain ⟨station, queue, hr, active, sites, gate⟩ := hview
  rw [Gated, gate, gateConditions_congr v station queue hr active sites]
  exact h

theorem openGate_conditions (v : View) (b : Blocks) : gateConditions v (openGate v b) = gateConditions v b := by
  unfold openGate
  simp only
  split
  · unfold issueGo
    simp only
    split
    · exact gateConditions_congr v rfl rfl rfl rfl rfl
    · exact gateConditions_congr v rfl rfl rfl rfl rfl
  · exact gateConditions_congr v rfl rfl rfl rfl rfl

theorem openGate_gate (v : View) (b : Blocks) : (openGate v b).iw.gate = true := by
  unfold openGate
  simp only
  split
  · unfold issueGo
    simp only
    split <;> rfl
  · rfl

theorem closeGate_conditions (v : View) (b : Blocks) : gateConditions v (closeGate b) = gateConditions v b := by
  unfold closeGate closeGateIw
  split <;> exact gateConditions_congr v rfl rfl rfl rfl rfl

theorem closeGate_gate (b : Blocks) : (closeGate b).iw.gate = false := by
  unfold closeGate closeGateIw
  split <;> rfl

theorem evaluateGate_gated (v : View) (b : Blocks) : (evaluateGate v b).Gated v := by
  unfold evaluateGate Blocks.Gated
  split
  · next hopen =>
    split
    · next h => rw [hopen, h]
    · rw [openGate_conditions, openGate_gate, hopen]
  · next hclosed =>
    split
    · rw [closeGate_conditions, closeGate_gate, Bool.eq_false_of_not_eq_true hclosed]
    · next h => rw [Bool.eq_false_of_not_eq_true hclosed, Bool.eq_false_of_not_eq_true h]

theorem settleRounds_gated (v : View) (n : Nat) : ∀ b, (settleRounds v (n + 1) b).Gated v := by
  induction n with
  | zero =>
    intro b
    simp only [settleRounds, ite_self]
    exact evaluateGate_gated v _
  | succ n ih =>
    intro b
    unfold settleRounds
    simp only
    split
    · exact ih _
    · exact evaluateGate_gated v _

theorem settle_gated (v : View) (b : Blocks) : (settle v b).Gated v := by
  unfold settle
  exact settleRounds_gated v 15 b

/-- The last round of the evaluations ends with the gate's; what follows it to the end of the command leaves the gate
and its conditions alone, or settles again. -/
theorem finish_gated (v : View) (b : Blocks) : (finish v b).Gated v := by
  have hleave : (completeLeave v (settle v b)).Gated v := by
    unfold completeLeave
    split
    · exact settle_gated v _
    · exact settle_gated v b
  exact hleave.congr rfl

theorem State.finish_gated (s : State) : s.finish.Gated := Machine.finish_gated s.view s.blocks

/-! ### The commands -/

theorem transmitStart_gated {v : View} {b : Blocks} (h : b.Gated v) : (transmitStart v b).Gated v := by
  unfold transmitStart
  split
  · exact h
  · exact finish_gated v _

theorem arbitrationLost_gated {v : View} {b : Blocks} (h : b.Gated v) : (arbitrationLost v b).Gated v := by
  unfold arbitrationLost
  split
  · exact finish_gated v _
  · exact h

theorem transmitFault_gated {v : View} {b : Blocks} (h : b.Gated v) : (transmitFault v b).Gated v := by
  unfold transmitFault
  split
  · split
    · split <;> exact finish_gated v _
    · exact finish_gated v _
  · exact h

theorem frameEnd_gated (r : Reception) {s : State} (h : s.Gated) : (frameEnd r s).Gated := by
  unfold frameEnd
  split
  · split
    · exact State.finish_gated _
    · exact h
  · split
    · exact State.finish_gated _
    · exact h.congr rfl

theorem reportDiscard_gateView (r : DiscardReport) (b : Blocks) : (reportDiscard r b).gateView = b.gateView := by
  unfold reportDiscard
  split <;> rfl

theorem discard_gated (r : DiscardReport) {s : State} (h : s.Gated) : (s.mapBlocks fun _ b => reportDiscard r b).Gated :=
  h.congr (reportDiscard_gateView r _)

theorem setCellRx_gated (bs : List Byte) {s : State} (h : s.Gated) : (setCellRx bs s).Gated := h.congr rfl

theorem receiveCell_gated (n : Nat) : ∀ (bs : List Byte) {s : State}, s.Gated → (receiveCell n bs s).Gated := by
  induction n with
  | zero => exact setCellRx_gated
  | succ n ih =>
    intro bs s h
    unfold receiveCell
    split
    · exact setCellRx_gated _ h
    · exact ih _ h
    · exact ih _ (discard_gated _ h)
    · exact ih _ (State.finish_gated _)

theorem dropCellPartial_gated (n : Nat) : ∀ {s : State}, s.Gated → (dropCellPartial n s).Gated := by
  induction n with
  | zero => exact id
  | succ n ih =>
    intro s h
    unfold dropCellPartial
    split
    · exact h
    · exact ih (receiveCell_gated _ _ (discard_gated _ (setCellRx_gated [] h)))

theorem cellTransmit_gated {s : State} (h : s.Gated) : (cellTransmit s).Gated := by
  unfold cellTransmit
  split
  · exact State.finish_gated _
  · exact h

/-- A reset leaves the Dispatch Queue empty and the gate closed. -/
theorem afterReset_gated (s : State) (straps : BitVec 6) (cfg : ConfigRecord) (c : ResetCause) (junk un : Nat)
    (sites : List SiteRec) : (afterReset s straps cfg (.reset c junk un sites)).Gated := rfl

theorem softReset_gated (straps : BitVec 6) {s : State} (h : s.Gated) : (softResetState straps s).Gated := by
  unfold softResetState
  split
  · exact afterReset_gated s straps _ _ _ _ _
  · exact h

/-- Every command but those of the resets, the Floor Link and the Cell Line's receiver and transmitter ends with the
evaluations. -/
theorem exec_gated (c : Instr) (s : State) : ∃ t, exec c s = .next t ∧ (s.Gated → t.Gated) := by
  cases c
  case powerOnReset straps => exact ⟨_, rfl, fun _ => afterReset_gated s straps _ _ _ _ _⟩
  case pinReset straps => exact ⟨_, rfl, fun _ => afterReset_gated s straps _ _ _ _ _⟩
  case softReset straps => exact ⟨_, rfl, softReset_gated straps⟩
  case transmitStart => exact ⟨_, rfl, transmitStart_gated⟩
  case arbitrationLost => exact ⟨_, rfl, arbitrationLost_gated⟩
  case transmitFault => exact ⟨_, rfl, transmitFault_gated⟩
  case frameEnd r => exact ⟨_, rfl, frameEnd_gated r⟩
  case cellLineMessage bs => exact ⟨_, rfl, receiveCell_gated _ _⟩
  case cellByteTimeout => exact ⟨_, rfl, dropCellPartial_gated _⟩
  case cellLineTransmit => exact ⟨_, rfl, cellTransmit_gated⟩
  all_goals exact ⟨_, rfl, fun _ => State.finish_gated _⟩

theorem step_gated {s t : State} (h : step s = .next t) (hs : s.Gated) : t.Gated := by
  cases hp : s.pending with
  | nil =>
    rw [step_empty hp] at h
    cases h
    exact hs.congr rfl
  | cons c rest =>
    rw [step_front hp] at h
    obtain ⟨t', ht, hkeeps⟩ := exec_gated c { s with pending := rest }
    rw [ht] at h
    cases h
    exact hkeeps hs

theorem gateInv_iff (s : State) : s.gateInv ↔ s.Gated ∧ s.blocks.iw.GoOverTest := Iff.rfl

/-- Settles O7. -/
theorem everyStepKeepsTheGate : Obligations.EveryStepKeepsTheGate := by
  intro s t hs hstep
  obtain ⟨hgate, hgo⟩ := (gateInv_iff s).mp hs
  exact (gateInv_iff t).mpr ⟨step_gated hstep hgate, (step_preserves hstep).go hgo⟩

end Sys2Proof.Machine
end

section
/-! The frames of whole families: the evaluations at the end of a command (O10), the loading messages and the operation
timers, the insertions (O11). -/

namespace Sys2Proof.Machine

theorem State.finish_evolves (s : State) (h : s.blocks.du.leaving = false) : Evolves s.blocks s.finish.blocks :=
  Machine.finish_evolves s.view s.blocks h

/-- Settles O10. -/
theorem evaluationsFrame : Obligations.EvaluationsFrame := fun s h => ⟨rfl, rfl, rfl, rfl, s.finish_evolves h⟩

/-! ### The loading messages and the operation timers -/

/-- Of the core at most the Refusal List changes. -/
structure Loads (b c : Blocks) : Prop where
  steps : c.steps = b.steps
  core : c.core = { b.core with du := { b.core.du with refusals := c.du.refusals } }

theorem Evolves.refusals {b c : Blocks} (h : Evolves b c) : c.du.refusals = b.du.refusals := by
  have k := congrArg (fun x : Blocks => x.du.refusals) h.core
  exact k

theorem Evolves.loads {b c : Blocks} (h : Evolves b c) : Loads b c := by
  refine ⟨h.steps, ?_⟩
  rw [h.core, h.refusals]
  rfl

theorem Loads.refl (b : Blocks) : Loads b b := (Evolves.refl b).loads

theorem Loads.trans {a b c : Blocks} (h : Loads a b) (k : Loads b c) : Loads a c := by
  refine ⟨k.steps.trans h.steps, ?_⟩
  rw [k.core, h.core]

theorem Loads.ite {p : Prop} [Decidable p] {a b c : Blocks} (h : Loads a b) (k : Loads a c) :
    Loads a (if p then b else c) := by
  split
  · exact h
  · exact k

theorem Loads.leaving {b c : Blocks} (h : Loads b c) : c.du.leaving = b.du.leaving := by
  have k := congrArg (fun x : Blocks => x.du.leaving) h.core
  exact k

theorem refusePair_loads (v : View) (p : Nat × Nat) (b : Blocks) : Loads b (refusePair v p b) := by
  have hadd : Loads b (markDue { b with du := { b.du with refusals := addRefusal p b.du.refusals } }) := ⟨rfl, rfl⟩
  exact hadd.trans (setCedes_evolves _ _ _).loads

theorem failOp_loads (v : View) (s : Slot) (c : LoadFailedCause) (b : Blocks) : Loads b (failOp v s c b) := by
  unfold failOp
  split
  · exact (((setOp_evolves none b).trans (setSlot_evolves _ _ _)).trans (raise_evolves _ _)).loads.trans
      (refusePair_loads v _ _)
  · exact (setOp_evolves none b).loads

theorem setCounts_evolves (s : Slot) (p : SlotProgram) (b : Blocks) : Evolves b (setCounts s p b) := by
  cases s <;> exact .of_eq rfl rfl rfl fun _ _ h => h

theorem unexpected_evolves (type : Nat) (slot : Option Nat) (b : Blocks) : Evolves b (unexpected type slot b) :=
  raise_evolves _ b

theorem stray_evolves (type slot : Nat) (b : Blocks) : Evolves b (stray type slot b) := by
  unfold stray
  split
  · exact .refl b
  · exact unexpected_evolves _ _ b

theorem restartBlockTimer_evolves (v : View) (s : Slot) (b : Blocks) : Evolves b (restartBlockTimer v s b) :=
  setOp_evolves _ b

theorem blockOk_loads (v : View) (slot n : Nat) (b : Blocks) : Loads b (blockOk v slot n b) := by
  unfold blockOk
  split
  · split
    · exact .ite ((setCounts_evolves _ _ b).trans (restartBlockTimer_evolves v _ _)).loads (failOp_loads v _ _ b)
    · exact .refl b
  · exact (stray_evolves _ _ b).loads

theorem reissue_evolves (v : View) (s : Slot) (p : SlotProgram) (n : Nat) (b : Blocks) : Evolves b (reissue v s p n b) :=
  ((setCounts_evolves _ _ b).trans (restartBlockTimer_evolves v _ _)).trans (sendDirective_evolves _ _)

theorem blockBad_loads (v : View) (slot n cause : Nat) (b : Blocks) : Loads b (blockBad v slot n cause b) := by
  unfold blockBad
  split
  · split
    · exact .ite (failOp_loads v _ _ b) (.ite (reissue_evolves v _ _ _ b).loads (failOp_loads v _ _ b))
    · exact .refl b
  · exact (stray_evolves _ _ b).loads

theorem loaded_evolves (v : View) (s : Slot) (p : SlotProgram) (b : Blocks) : Evolves b (loaded v s p b) := by
  have hset : Evolves b (setSlot s ⟨.loaded, some p⟩ (setOp none b)) := (setOp_evolves none b).trans (setSlot_evolves _ _ _)
  exact .ite (hset.trans (issueVerify_evolves s _)) hset

theorem loadEnd_loads (v : View) (slot : Nat) (b : Blocks) : Loads b (loadEnd v slot b) := by
  unfold loadEnd
  split
  · split
    · exact .ite (loaded_evolves v _ _ b).loads (failOp_loads v _ _ b)
    · exact .refl b
  · exact (stray_evolves _ _ b).loads

theorem verified_evolves (s : Slot) (b : Blocks) : Evolves b (verified s b) := by
  unfold verified
  split
  · exact ((setOp_evolves none b).trans (setSlot_evolves _ _ _)).trans (raise_evolves _ _)
  · exact setOp_evolves none b

theorem verifyResult_loads (v : View) (slot : Nat) (m : Bool) (b : Blocks) : Loads b (verifyResult v slot m b) := by
  unfold verifyResult
  split
  · exact .ite (verified_evolves _ b).loads (failOp_loads v _ _ b)
  · exact (stray_evolves _ _ b).loads

theorem swapDone_evolves (b : Blocks) : Evolves b (swapDone b) :=
  .ite (((setOp_evolves none b).trans (setSlot_evolves _ _ _)).trans (setSlot_evolves _ _ _)) (unexpected_evolves _ _ b)

theorem purgeDone_evolves (slot : Nat) (b : Blocks) : Evolves b (purgeDone slot b) := by
  unfold purgeDone
  split
  · exact (setOp_evolves none b).trans (setSlot_evolves _ _ _)
  · exact unexpected_evolves _ _ b

theorem blockExpired_loads (v : View) (b : Blocks) : Loads b (blockExpired v b) := by
  unfold blockExpired
  split
  · exact failOp_loads v _ _ b
  · exact .refl b

theorem verifyExpired_loads (v : View) (b : Blocks) : Loads b (verifyExpired v b) := by
  unfold verifyExpired
  split
  · exact failOp_loads v _ _ b
  · exact .refl b

theorem swapExpired_evolves (b : Blocks) : Evolves b (swapExpired b) :=
  .ite ((((setOp_evolves none b).trans (setSlot_evolves _ _ _)).trans (setSlot_evolves _ _ _)).trans (raise_evolves _ _))
    (.refl b)

theorem purgeExpired_evolves (b : Blocks) : Evolves b (purgeExpired b) := by
  unfold purgeExpired
  split
  · exact ((setOp_evolves none b).trans (setSlot_evolves _ _ _)).trans (raise_evolves _ _)
  · exact .refl b

/-- A loading message or an operation timer works on the blocks, and the evaluations follow. -/
theorem exec_loading (c : Instr) (s : State) (h : ofLoading c = true) :
    ∃ f : View → Blocks → Blocks, exec c s = .next (s.mapBlocks f).finish ∧ Loads s.blocks (f s.view s.blocks) := by
  cases c
  case blockOk slot n => exact ⟨_, rfl, blockOk_loads _ slot n _⟩
  case blockBad slot n cause => exact ⟨_, rfl, blockBad_loads _ slot n cause _⟩
  case loadEnd slot => exact ⟨_, rfl, loadEnd_loads _ slot _⟩
  case verifyResult slot m => exact ⟨_, rfl, verifyResult_loads _ slot m _⟩
  case swapDone => exact ⟨_, rfl, (swapDone_evolves _).loads⟩
  case purgeDone slot => exact ⟨_, rfl, (purgeDone_evolves slot _).loads⟩
  case blockTimeout => exact ⟨_, rfl, blockExpired_loads _ _⟩
  case verifyTimeout => exact ⟨_, rfl, verifyExpired_loads _ _⟩
  case swapTimeout => exact ⟨_, rfl, (swapExpired_evolves _).loads⟩
  case purgeTimeout => exact ⟨_, rfl, (purgeExpired_evolves _).loads⟩
  all_goals cases h

/-! ### The insertions -/

/-- Of the core the Insertion Watch changes, and at most the CLAIM LOST notices that waited and the hold serial. -/
structure Inserts (b c : Blocks) : Prop where
  steps : c.steps = b.steps
  lc : c.core.lc = b.core.lc
  pu : c.core.pu = b.core.pu
  cu : c.cu = b.cu
  hr : c.core.hr = b.core.hr
  le : c.core.le = b.core.le
  du : c.core.du = { b.core.du with lostAfterTest := c.du.lostAfterTest }
  cli : c.core.cli = { b.core.cli with serial := c.cli.serial }

theorem Evolves.inserts {b c : Blocks} (h : Evolves b c) : Inserts b c where
  steps := h.steps
  lc := congrArg Blocks.lc h.core
  pu := congrArg Blocks.pu h.core
  cu := h.cu
  hr := congrArg Blocks.hr h.core
  le := congrArg Blocks.le h.core
  du := by
    have hdu := congrArg Blocks.du h.core
    have hlost := congrArg DispatchUnit.lostAfterTest hdu
    rw [show c.du.lostAfterTest = b.du.lostAfterTest from hlost]
    exact hdu
  cli := by
    have hcli := congrArg Blocks.cli h.core
    have hserial := congrArg CellLineInterface.serial hcli
    rw [show c.cli.serial = b.cli.serial from hserial]
    exact hcli

theorem Inserts.refl (b : Blocks) : Inserts b b := (Evolves.refl b).inserts

theorem Inserts.trans {a b c : Blocks} (h : Inserts a b) (k : Inserts b c) : Inserts a c :=
  ⟨k.steps.trans h.steps, k.lc.trans h.lc, k.pu.trans h.pu, k.cu.trans h.cu, k.hr.trans h.hr, k.le.trans h.le,
    by rw [k.du, h.du], by rw [k.cli, h.cli]⟩

theorem Inserts.ite {p : Prop} [Decidable p] {a b c : Blocks} (h : Inserts a b) (k : Inserts a c) :
    Inserts a (if p then b else c) := by
  split
  · exact h
  · exact k

theorem Inserts.leaving {b c : Blocks} (h : Inserts b c) : c.du.leaving = b.du.leaving := by
  have k := congrArg (fun x : DispatchUnit => x.leaving) h.du
  exact k

theorem setIw_inserts (w : InsertionWatch) (b : Blocks) : Inserts b (setIw w b) := ⟨rfl, rfl, rfl, rfl, rfl, rfl, rfl, rfl⟩

theorem setCounters_inserts (c : StepCounters) (b : Blocks) : Inserts b (setCounters c b) := setIw_inserts _ b

theorem enqueueHold_inserts (v : View) (o : Owner) (host : Bool) (t : HoldTarget) (l : Level) (r : Reason) (b : Blocks) :
    Inserts b (enqueueHold v o host t l r b) := by
  have hserial : Inserts b { b with cli := { b.cli with serial := nextSerial v b + 1 } } :=
    ⟨rfl, rfl, rfl, rfl, rfl, rfl, rfl, rfl⟩
  exact hserial.trans (offer_evolves _ _ _ _ _).inserts

/-- An automatic hold of the Insertion Watch; one of the Dispatch Unit is for COUNT (R154). -/
theorem autoHold_inserts (v : View) (t : HoldTarget) (l : Level) {r : Reason} (hr : r ≠ .count) (b : Blocks) :
    Inserts b (autoHold v t l r b) := by
  have hpending : Inserts b (keepPending ⟨t, l, r⟩ b) := by
    unfold keepPending
    rw [if_neg (by simpa using hr)]
    exact setIw_inserts _ b
  exact .ite hpending (.ite (.refl b) (.ite (raise_evolves _ b).inserts (enqueueHold_inserts v _ _ _ _ _ b)))

theorem lotHold_inserts (v : View) (l : Level) {r : Reason} (hr : r ≠ .count) (b : Blocks) :
    Inserts b (lotHold v l r b) := by
  unfold lotHold
  split
  · exact autoHold_inserts v _ l hr b
  · exact .refl b

theorem issueGo_inserts (v : View) (m : SiteMask) (b : Blocks) : Inserts b (issueGo v m b) := by
  have hidle : Inserts b { b with iw := { b.iw with insertion := .idle } } := setIw_inserts _ b
  exact .ite (hidle.trans (raise_evolves _ _).inserts) (setIw_inserts _ b)

theorem seat_inserts (v : View) (occupancy : SiteMask) (b : Blocks) : Inserts b (seat v occupancy b) := by
  unfold seat
  simp only
  split
  · exact .ite (issueGo_inserts v _ b) (setIw_inserts _ b)
  · exact setIw_inserts _ b
  · exact (raise_evolves _ b).inserts

theorem setSite_inserts (n : Nat) (r : SiteRec) (b : Blocks) : Inserts b (setSite n r b) := setIw_inserts _ b

theorem sitesHold_inserts (v : View) (b : Blocks) : Inserts b (sitesHold v b) :=
  .ite (.refl b) (autoHold_inserts v _ _ (by decide) b)

theorem maskingTest_inserts (v : View) (n : Nat) (b : Blocks) : Inserts b (maskingTest v n b) :=
  .ite ((((setSite_inserts n _ b).trans (raise_evolves _ _).inserts).trans (evaluateGate_evolves v _).inserts).trans
    (sitesHold_inserts v _)) (.refl b)

theorem siteResult_inserts (n : Nat) (passed : Bool) (b : Blocks) : Inserts b (siteResult n passed b) :=
  .ite (setSite_inserts n _ b) (.refl b)

theorem windowResult_inserts (v : View) (x : UnitResult) (b : Blocks) : Inserts b (windowResult v x b) :=
  .ite (((setIw_inserts _ b).trans (lotHold_inserts v _ (by decide) _)).trans (setIw_inserts _ _)) (setIw_inserts _ b)

theorem contactHold_inserts (v : View) (b : Blocks) : Inserts b (contactHold v b) := by
  unfold contactHold
  split
  · exact autoHold_inserts v _ _ (by decide) b
  · exact .refl b

theorem tripResult_inserts (v : View) (bin : Nat) (b : Blocks) : Inserts b (tripResult v bin b) :=
  .ite (.ite ((contactHold_inserts v b).trans (setIw_inserts _ _)) (setIw_inserts _ b)) (.refl b)

theorem takeUnit_inserts (v : View) (pass : BinMask) (n bin : Nat) (b : Blocks) : Inserts b (takeUnit v pass n bin b) := by
  have hsite : ∀ (c : StepCounters) (passed : Bool), Inserts b (maskingTest v n (siteResult n passed (setCounters c b))) :=
    fun c passed => ((setCounters_inserts c b).trans (siteResult_inserts n passed _)).trans (maskingTest_inserts v n _)
  exact .ite (hsite _ _) (.ite (((hsite _ _).trans (windowResult_inserts v _ _)).trans (tripResult_inserts v bin _))
    (((hsite _ _).trans (windowResult_inserts v _ _)).trans (tripResult_inserts v bin _)))

theorem takeUnits_inserts (v : View) (pass : BinMask) (bins : BitVec 32) :
    ∀ (ns : List Nat) (b : Blocks), Inserts b (takeUnits v pass bins ns b)
  | [], b => .refl b
  | n :: ns, b => (takeUnit_inserts v pass n _ b).trans (takeUnits_inserts v pass bins ns _)

theorem endInsertion_inserts (b : Blocks) : Inserts b (endInsertion b) := setIw_inserts _ b

theorem enqueueTally_inserts (v : View) (lot : Nat) (b : Blocks) : Inserts b (enqueueTally v lot b) :=
  .ite (.refl b) (.ite (offer_evolves _ _ _ _ b).inserts (setIw_inserts _ b))

theorem endStep_inserts (v : View) (lot : Nat) (b : Blocks) : Inserts b (endStep v lot b) :=
  ((updateEntry_evolves lot _ (fun e => { e with phase := .ending }) (fun _ => rfl) b).inserts.trans
    (setCounters_inserts _ _)).trans (enqueueTally_inserts v lot _)

theorem stepEndTest_inserts (v : View) (b : Blocks) : Inserts b (stepEndTest v b) := by
  unfold stepEndTest
  split
  · exact .ite (endStep_inserts v _ b) (.refl b)
  · exact .refl b

theorem raiseLost_evolves (c : StepCounters) : ∀ (xs : List LostClaim) (b : Blocks), Evolves b (raiseLost c xs b)
  | [], b => .refl b
  | _ :: xs, b => (raise_evolves _ b).trans (raiseLost_evolves c xs _)

theorem insertionCounted_inserts (v : View) (b : Blocks) : Inserts b (insertionCounted v b) := by
  have htaken : Inserts b { b with du := { b.du with lostAfterTest := [] } } := ⟨rfl, rfl, rfl, rfl, rfl, rfl, rfl, rfl⟩
  exact (htaken.trans (raiseLost_evolves _ _ _).inserts).trans (stepEndTest_inserts v _)

theorem verdict_inserts (v : View) (bins : BitVec 32) (b : Blocks) : Inserts b (verdict v bins b) := by
  unfold verdict
  split
  · exact ((takeUnits_inserts v _ bins _ b).trans (endInsertion_inserts _)).trans (insertionCounted_inserts v _)
  · exact (raise_evolves _ b).inserts

theorem insertionTimeout_inserts (v : View) (b : Blocks) : Inserts b (insertionTimeout v b) := by
  unfold insertionTimeout
  split
  · exact ((((setCounters_inserts _ b).trans (endInsertion_inserts _)).trans (setIw_inserts _ _)).trans
      (lotHold_inserts v _ (by decide) _)).trans (insertionCounted_inserts v _)
  · exact .refl b

theorem exec_insertion (c : Instr) (s : State) (h : ofInsertion c = true) :
    ∃ f : View → Blocks → Blocks, exec c s = .next (s.mapBlocks f).finish ∧ Inserts s.blocks (f s.view s.blocks) := by
  cases c
  case seat m => exact ⟨_, rfl, seat_inserts _ m _⟩
  case verdict bins => exact ⟨_, rfl, verdict_inserts _ bins _⟩
  case insertionTimeout => exact ⟨_, rfl, insertionTimeout_inserts _ _⟩
  all_goals cases h

/-- Settles O11. -/
theorem loadingAndInsertionFrames : Obligations.LoadingAndInsertionFrames := by
  constructor
  · intro c s t hc hl ht
    obtain ⟨f, hexec, h⟩ := exec_loading c s hc
    obtain rfl : (s.mapBlocks f).finish = t := by simpa using hexec.symm.trans ht
    have hall := h.trans (State.finish_evolves (s.mapBlocks f) (h.leaving.trans hl)).loads
    exact ⟨rfl, rfl, rfl, rfl, hall.steps, hall.core⟩
  · intro c s t hc hl ht
    obtain ⟨f, hexec, h⟩ := exec_insertion c s hc
    obtain rfl : (s.mapBlocks f).finish = t := by simpa using hexec.symm.trans ht
    have hall := h.trans (State.finish_evolves (s.mapBlocks f) (h.leaving.trans hl)).inserts
    exact ⟨rfl, rfl, rfl, rfl, hall.steps, hall.lc, hall.pu, hall.cu, hall.hr, hall.le, hall.du, hall.cli⟩

end Sys2Proof.Machine
end

section
/-! The Send Queue under the evaluations: a station that accepts no frames (R9) keeps an empty one, and a HOLD that stands
or waits is not withdrawn (R11, R154). -/

namespace Sys2Proof.Machine

/-- No entry is queued and no offer waits. -/
def Blocks.NoFrames (b : Blocks) : Prop := b.lc.queue = [] ∧ b.lc.waiting = []

/-- A frame stands or waits. -/
def Blocks.Stands (b : Blocks) (body : FrameBody) : Prop := ∃ e ∈ b.lc.queue ++ b.lc.waiting, e.body = body

def FrameBody.isHold : FrameBody → Bool
  | .hold .. => true
  | _ => false

/-- What of the Cell Line Interface the taking of requests looks at (R173). -/
def Blocks.taken (b : Blocks) : List Request × Option Response × Bool := (b.cli.fifo, b.cli.resp, b.cli.resetAwaited)

/-- What the evaluations do to the Send Queue; the Presence Unit and the requests are left alone. -/
structure LinkWork (b c : Blocks) : Prop where
  pu : c.pu = b.pu
  taken : c.taken = b.taken
  silent : acceptsFrames b.station = false → b.NoFrames → c.NoFrames
  holds : ∀ body, body.isHold = true → b.Stands body → c.Stands body

theorem LinkWork.station {b c : Blocks} (h : LinkWork b c) : c.station = b.station := congrArg PresenceUnit.station h.pu

theorem LinkWork.refl (b : Blocks) : LinkWork b b := ⟨rfl, rfl, fun _ => id, fun _ _ => id⟩

theorem LinkWork.trans {a b c : Blocks} (h : LinkWork a b) (k : LinkWork b c) : LinkWork a c :=
  ⟨k.pu.trans h.pu, k.taken.trans h.taken, fun ha hn => k.silent (by rw [h.station]; exact ha) (h.silent ha hn),
    fun x hx hs => k.holds x hx (h.holds x hx hs)⟩

theorem LinkWork.ite {p : Prop} [Decidable p] {a b c : Blocks} (h : LinkWork a b) (k : LinkWork a c) :
    LinkWork a (if p then b else c) := by
  split
  · exact h
  · exact k

/-- A change that leaves the Link Controller, too, alone. -/
theorem LinkWork.of_eq {b c : Blocks} (hlc : c.lc = b.lc) (hpu : c.pu = b.pu) (ht : c.taken = b.taken) : LinkWork b c :=
  ⟨hpu, ht, fun _ => by simp only [Blocks.NoFrames, hlc]; exact id, fun _ _ => by simp only [Blocks.Stands, hlc]; exact id⟩

theorem LinkWork.foldOver {α : Type} {f : List α → Blocks → Blocks} {g : α → Blocks → Blocks} (hnil : ∀ b, f [] b = b)
    (hcons : ∀ x xs b, f (x :: xs) b = f xs (g x b)) (hg : ∀ x b, LinkWork b (g x b)) (xs : List α) :
    ∀ b, LinkWork b (f xs b) := by
  induction xs with
  | nil => exact fun b => by rw [hnil]; exact .refl b
  | cons x xs ih => exact fun b => by rw [hcons]; exact (hg x b).trans (ih _)

/-! ### The operations of the Send Queue -/

theorem grantOne_mem (e : SendEntry) (lc : LinkController) :
    e ∈ (grantOne lc).queue ++ (grantOne lc).waiting ↔ e ∈ lc.queue ++ lc.waiting := by
  unfold grantOne
  split
  · split
    · next x hx =>
      have hmem : x ∈ lc.waiting := nextOffer_mem _ _ hx
      have herase := (List.perm_cons_erase hmem).mem_iff (a := e)
      simp only [List.mem_append, mem_insertEntry, herase, List.mem_cons]
      tauto
    · rfl
  · rfl

theorem grants_mem (e : SendEntry) (n : Nat) : ∀ lc : LinkController,
    e ∈ (grants n lc).queue ++ (grants n lc).waiting ↔ e ∈ lc.queue ++ lc.waiting := by
  induction n with
  | zero => exact fun _ => Iff.rfl
  | succ n ih => exact fun lc => (ih _).trans (grantOne_mem e lc)

/-- A grant moves an offer from the waiting ones into the queue (R9). -/
theorem refill_mem (e : SendEntry) (n : Nat) (lc : LinkController) :
    e ∈ (refill n lc).queue ++ (refill n lc).waiting ↔ e ∈ lc.queue ++ lc.waiting := by
  unfold refill
  exact grants_mem e n lc

theorem noFrames_iff (b : Blocks) : b.NoFrames ↔ ∀ e, e ∉ b.lc.queue ++ b.lc.waiting := by
  rw [Blocks.NoFrames, ← List.eq_nil_iff_forall_not_mem, List.append_eq_nil_iff]

/-- An entry that is still there after a withdrawal was there before, perhaps without the removal mark (R11). -/
theorem mem_withdrawLc {e : SendEntry} {p : FrameBody → Bool} {lc : LinkController}
    (h : e ∈ (withdrawLc p lc).queue ++ (withdrawLc p lc).waiting) : ∃ x ∈ lc.queue ++ lc.waiting, x.body = e.body := by
  simp only [withdrawLc, LinkController.release] at h
  rw [refill_mem] at h
  simp only [List.mem_append, List.mem_filter, List.mem_map] at h
  rcases h with ⟨⟨x, hx, rfl⟩, _⟩ | ⟨hx, _⟩
  · refine ⟨x, List.mem_append_left _ hx, ?_⟩
    split <;> rfl
  · exact ⟨e, List.mem_append_right _ hx, rfl⟩

/-- An entry of another frame stays through a withdrawal (R11). -/
theorem withdrawLc_keeps {e : SendEntry} {p : FrameBody → Bool} {lc : LinkController} (hp : p e.body = false)
    (h : e ∈ lc.queue ++ lc.waiting) : e ∈ (withdrawLc p lc).queue ++ (withdrawLc p lc).waiting := by
  simp only [withdrawLc, LinkController.release]
  rw [refill_mem]
  simp only [List.mem_append, List.mem_filter, List.mem_map]
  rcases List.mem_append.mp h with h | h
  · exact .inl ⟨⟨e, h, by simp [hp]⟩, by simp [hp]⟩
  · exact .inr ⟨h, by simp [hp]⟩

theorem mem_offerLc {e x : SendEntry} {lc : LinkController} (h : x ∈ lc.queue ++ lc.waiting) :
    x ∈ (offerLc e lc).queue ++ (offerLc e lc).waiting := by
  unfold offerLc
  split
  · exact h
  · split
    · simp only [List.mem_append, mem_insertEntry] at h ⊢
      tauto
    · simp only [List.mem_append] at h ⊢
      tauto

/-- An offer that is not absorbed stands or waits (R9). -/
theorem offerLc_mem (e : SendEntry) (lc : LinkController) (h : isBeacon e.body = false) :
    e ∈ (offerLc e lc).queue ++ (offerLc e lc).waiting := by
  unfold offerLc
  rw [h, Bool.false_and, if_neg Bool.false_ne_true]
  split
  · exact List.mem_append_left _ ((mem_insertEntry e e _).mpr (.inl rfl))
  · simp

theorem withdrawAll_noFrames (p : FrameBody → Bool) {b : Blocks} (h : b.NoFrames) : (withdrawAll p b).NoFrames := by
  rw [noFrames_iff] at h ⊢
  intro e he
  obtain ⟨x, hx, _⟩ := mem_withdrawLc he
  exact h x hx

theorem withdrawAll_link (p : FrameBody → Bool) (hp : ∀ x, x.isHold = true → p x = false) (b : Blocks) :
    LinkWork b (withdrawAll p b) :=
  ⟨rfl, rfl, fun _ => withdrawAll_noFrames p, fun x hx ⟨e, he, hbody⟩ =>
    ⟨e, withdrawLc_keeps (by rw [hbody]; exact hp x hx) he, hbody⟩⟩

theorem withdrawFrame_link (body : FrameBody) (hbody : body.isHold = false) (b : Blocks) :
    LinkWork b (withdrawFrame body b) :=
  withdrawAll_link _ (fun x hx => by
    rw [beq_eq_false_iff_ne]
    rintro rfl
    rw [hbody] at hx
    cases hx) b

theorem offer_link (body : FrameBody) (t : Nat) (o : Owner) (host : Bool) (b : Blocks) :
    LinkWork b (offer body t o host b) := by
  unfold offer
  split
  · next ha =>
    refine ⟨rfl, rfl, fun hn => ?_, fun x _ ⟨e, he, hx⟩ => ⟨e, mem_offerLc he, hx⟩⟩
    rw [ha] at hn
    cases hn
  · exact .refl b

theorem isStartOf_hold (l k : Nat) (x : FrameBody) (hx : x.isHold = true) : isStartOf l k x = false := by
  cases x <;> first | rfl | cases hx

theorem isKitTake_hold (x : FrameBody) (hx : x.isHold = true) : isKitTake x = false := by
  cases x <;> first | rfl | cases hx

/-! ### Cedes and the kit request -/

theorem markDue_link (b : Blocks) : LinkWork b (markDue b) := .of_eq rfl rfl rfl

theorem raise_taken (n : Notice) (b : Blocks) : (raise n b).taken = b.taken := by
  unfold Blocks.taken raise raiseCli
  split <;> rfl

theorem raise_link (n : Notice) (b : Blocks) : LinkWork b (raise n b) := .of_eq rfl rfl (raise_taken n b)

theorem raiseIf_link (c : Bool) (n : Notice) (b : Blocks) : LinkWork b (raiseIf c n b) := .ite (raise_link n b) (.refl b)

theorem updateEntry_link (l k : Nat) (f : QueueEntry → QueueEntry) (b : Blocks) : LinkWork b (updateEntry l k f b) :=
  .of_eq rfl rfl rfl

theorem setRequest_link (r : Option KitRequest) (b : Blocks) : LinkWork b (setRequest r b) := .of_eq rfl rfl rfl

theorem enqueueCede_link (l k : Nat) (host : Bool) (b : Blocks) : LinkWork b (enqueueCede l k host b) :=
  .ite (.refl b) (offer_link _ _ _ _ b)

theorem setCede_link (c : CedeCause) (l k : Nat) (b : Blocks) : LinkWork b (setCede c l k b) := by
  unfold setCede
  split
  · next e _ =>
    refine .ite ?_ (.refl b)
    have hset := updateEntry_link l k (fun e => { e with cede := some (mergeCause e.cede c) }) b
    have hstart := hset.trans (LinkWork.ite (p := e.phase == .ready) (withdrawAll_link _ (isStartOf_hold l k) _) (.refl _))
    have hdue := hstart.trans (LinkWork.ite (p := e.phase == .ready) (markDue_link _) (.refl _))
    exact .ite (hdue.trans (enqueueCede_link l k _ _)) hdue
  · exact .refl b

theorem setCedes_link (c : CedeCause) : ∀ (es : List QueueEntry) (b : Blocks), LinkWork b (setCedes c es b) :=
  .foldOver (fun _ => rfl) (fun _ _ _ => rfl) fun _ b => setCede_link c _ _ b

theorem clearCede_link (c : CedeCause) (l k : Nat) (b : Blocks) : LinkWork b (clearCede c l k b) :=
  (updateEntry_link l k _ b).trans (withdrawFrame_link _ rfl _)

theorem oweCedes_link : ∀ (es : List QueueEntry) (b : Blocks), LinkWork b (oweCedes es b)
  | [], b => .refl b
  | e :: es, b => by
    refine LinkWork.trans ?_ (oweCedes_link es _)
    split
    · exact .ite (enqueueCede_link _ _ _ b) (.refl b)
    · exact .refl b

theorem holdCede_link (v : View) (e : QueueEntry) (b : Blocks) : LinkWork b (holdCede v e b) :=
  .ite (.ite (setCede_link _ _ _ b) (.refl b)) (.ite (clearCede_link _ _ _ b) (.refl b))

theorem holdCedes_link (v : View) : ∀ (es : List QueueEntry) (b : Blocks), LinkWork b (holdCedes v es b) :=
  .foldOver (fun _ => rfl) (fun _ _ _ => rfl) (holdCede_link v)

theorem endRequest_link (b : Blocks) : LinkWork b (endRequest b) := by
  unfold endRequest
  split
  · exact (setRequest_link none b).trans (withdrawAll_link _ isKitTake_hold _)
  · exact .refl b

theorem chooseKit_link (v : View) (r : KitRequest) (b : Blocks) : LinkWork b (chooseKit v r b) := by
  unfold chooseKit
  refine .ite (endRequest_link b) ?_
  split
  · exact (setRequest_link _ b).trans (raise_link _ _)
  · split
    · exact (setRequest_link _ b).trans (raise_link _ _)
    · split
      · exact (setRequest_link _ b).trans (offer_link _ _ _ _ _)
      · exact (endRequest_link b).trans (setCede_link _ _ _ _)

theorem askKit_link (v : View) (l k f : Nat) (b : Blocks) : LinkWork b (askKit v l k f b) := by
  unfold askKit
  split
  · exact .ite (.refl b) ((endRequest_link b).trans (chooseKit_link v _ _))
  · exact chooseKit_link v _ b

theorem upkeepRequest_link (b : Blocks) : LinkWork b (upkeepRequest b) := by
  unfold upkeepRequest
  split
  · split
    · exact .ite (.refl b) (endRequest_link b)
    · exact endRequest_link b
  · exact .refl b

/-! ### The Dispatch Unit's evaluation -/

theorem computeNeeds_link (v : View) (e : QueueEntry) (b : Blocks) : LinkWork b (computeNeeds v e b) := by
  unfold computeNeeds
  simp only
  split
  · exact (updateEntry_link _ _ _ b).trans (raiseIf_link _ _ _)
  · exact updateEntry_link _ _ _ b

theorem computeAllNeeds_link (v : View) : ∀ (es : List QueueEntry) (b : Blocks), LinkWork b (computeAllNeeds v es b) :=
  .foldOver (fun _ => rfl) (fun _ _ _ => rfl) (computeNeeds_link v)

theorem makeRequests_link (v : View) (e : QueueEntry) (b : Blocks) : LinkWork b (makeRequests v e b) := by
  unfold makeRequests
  refine (updateEntry_link e.lot e.step (fun x => { x with asked := true }) b).trans ?_
  generalize updateEntry e.lot e.step (fun x => { x with asked := true }) b = c
  have hband : LinkWork c (match bandNeededOf v c e with
      | some x => raise (.bandNeeded e.lot e.step x) c
      | none => c) := by
    split
    · exact raise_link _ c
    · exact .refl c
  simp only
  split
  · exact hband.trans (askKit_link v _ _ _ _)
  · exact hband

theorem fallBack_link (e : QueueEntry) (b : Blocks) : LinkWork b (fallBack e b) :=
  (updateEntry_link _ _ _ b).trans (withdrawAll_link _ (isStartOf_hold _ _) _)

theorem makeReady_link (e : QueueEntry) (b : Blocks) : LinkWork b (makeReady e b) := by
  unfold makeReady
  split
  · exact (updateEntry_link _ _ _ b).trans (offer_link _ _ _ _ _)
  · exact .refl b

theorem withHead_link (f : QueueEntry → Blocks → Blocks) (hf : ∀ e b, LinkWork b (f e b)) (b : Blocks) :
    LinkWork b (withHead f b) := by
  unfold withHead
  split
  · exact hf _ b
  · exact .refl b

theorem deferStep_link (v : View) (l : LotRec) (k : Nat) (s : StepRec) (b : Blocks) : LinkWork b (deferStep v l k s b) :=
  .ite (.ite (.refl b) (.of_eq rfl rfl rfl))
    (.ite (.refl b) (.ite (.ite (offer_link _ _ _ _ b) (.of_eq rfl rfl rfl)) (.refl b)))

theorem deferSteps_link (v : View) (l : LotRec) : ∀ (k : Nat) (ss : List StepRec) (b : Blocks),
    LinkWork b (deferSteps v l k ss b)
  | _, [], b => .refl b
  | k, s :: ss, b =>
    LinkWork.trans (b := if s.state.isWaiting then deferStep v l k s b else stopDeference l.lot k b)
      (.ite (deferStep_link v l k s b) (.of_eq rfl rfl rfl))
      (deferSteps_link v l (k + 1) ss _)

theorem deferLots_link (v : View) : ∀ (ls : List LotRec) (b : Blocks), LinkWork b (deferLots v ls b) :=
  .foldOver (fun _ => rfl) (fun _ _ _ => rfl) fun l b => deferSteps_link v l 1 l.plan b

theorem evaluateDeference_link (v : View) (b : Blocks) : LinkWork b (evaluateDeference v b) :=
  LinkWork.trans (b := { b with du := { b.du with timers := b.du.timers.filter fun t => (v.rep.step? t.lot t.step).isSome } })
    (.of_eq rfl rfl rfl) (deferLots_link v _ _)

theorem evaluateDispatch_link (v : View) (b : Blocks) : LinkWork b (evaluateDispatch v b) :=
  ((((((((computeAllNeeds_link v _ b).trans (withHead_link _ (fun _ _ => .ite (updateEntry_link ..) (.refl _)) _)).trans
    (holdCedes_link v _ _)).trans
    ((withHead_link _ (fun _ _ => .ite (updateEntry_link ..) (.refl _)) _).trans (withHead_link _ (holdCede_link v) _))).trans
    (oweCedes_link _ _)).trans (withHead_link _ (fun e _ => .ite (fallBack_link e _) (.refl _)) _)).trans
    (withHead_link _ (fun e _ => .ite (makeRequests_link v e _) (.refl _)) _)).trans
    (withHead_link _ (fun e _ => .ite (makeReady_link e _) (.refl _)) _)).trans (evaluateDeference_link v _)

theorem evaluateIfDue_link (v : View) (b : Blocks) : LinkWork b (evaluateIfDue v b) := by
  unfold evaluateIfDue
  refine .ite ?_ (.refl b)
  exact LinkWork.trans (b := { b with du := { b.du with evalDue := false } }) (.of_eq rfl rfl rfl) (evaluateDispatch_link v _)

/-! ### The Load Engine, the gate and the whole -/

theorem setSlot_link (s : Slot) (r : SlotRec) (b : Blocks) : LinkWork b (setSlot s r b) := by
  cases s <;> exact .of_eq rfl rfl rfl

theorem issueLoad_link (v : View) (s : Slot) (sp : StepSpec) (b : Blocks) : LinkWork b (issueLoad v s sp b) :=
  (setSlot_link _ _ b).trans (.of_eq rfl rfl rfl)

theorem issueVerify_link (s : Slot) (b : Blocks) : LinkWork b (issueVerify s b) := by
  unfold issueVerify
  split
  · exact (setSlot_link _ _ b).trans (.of_eq rfl rfl rfl)
  · exact .refl b

theorem abortUnwanted_link (v : View) (b : Blocks) : LinkWork b (abortUnwanted v b) := by
  have habort : ∀ s, LinkWork b (abortOp s b) := fun s => (setSlot_link s _ b).trans (.of_eq rfl rfl rfl)
  unfold abortUnwanted
  repeat' first
    | exact .refl b
    | exact .ite (habort _) (.refl b)
    | split

theorem headWork_link (v : View) (b : Blocks) (f : Blocks → Blocks) (h : headWork v b = some f) :
    ∀ c, LinkWork c (f c) := by
  unfold headWork at h
  intro c
  simp only at h
  repeat' first
    | cases h
    | exact issueVerify_link _ c
    | exact issueLoad_link v _ _ c
    | exact .of_eq rfl rfl rfl
    | split at h

theorem behindWork_link (v : View) (b : Blocks) (f : Blocks → Blocks) (h : behindWork v b = some f) :
    ∀ c, LinkWork c (f c) := by
  unfold behindWork at h
  intro c
  repeat' first
    | cases h
    | exact issueVerify_link _ c
    | (simp only [Option.map_eq_some_iff] at h; obtain ⟨s, _, rfl⟩ := h; exact issueLoad_link v _ _ c)
    | split at h

theorem chooseWork_link (v : View) (b : Blocks) : LinkWork b (chooseWork v b) := by
  unfold chooseWork
  split
  · exact .refl b
  · split
    · next h => exact headWork_link v b _ h b
    · split
      · next h => exact behindWork_link v b _ h b
      · exact .refl b

theorem evaluateGate_link (v : View) (b : Blocks) : LinkWork b (evaluateGate v b) := by
  have hopen : LinkWork b (openGate v b) := by
    unfold openGate
    simp only
    split
    · unfold issueGo
      simp only
      exact .ite (.of_eq rfl rfl (raise_taken _ _)) (.of_eq rfl rfl rfl)
    · exact .of_eq rfl rfl rfl
  exact .ite (.ite (.refl b) hopen) (.ite (.of_eq rfl rfl rfl) (.refl b))

theorem settleRound_link (v : View) (b : Blocks) : LinkWork b (settleRound v b) :=
  (((evaluateIfDue_link v b).trans (upkeepRequest_link _)).trans
    ((abortUnwanted_link v _).trans (chooseWork_link v _))).trans (evaluateGate_link v _)

theorem settleRounds_link (v : View) (n : Nat) : ∀ b, LinkWork b (settleRounds v n b) := by
  induction n with
  | zero => exact .refl
  | succ n ih => exact fun b => (settleRound_link v b).trans (.ite (ih _) (.refl _))

theorem settle_link (v : View) (b : Blocks) : LinkWork b (settle v b) := by
  unfold settle
  exact settleRounds_link v _ b

/-! ### The end of a command -/

theorem finish_lc {v : View} {b : Blocks} (h : b.du.leaving = false) : (finish v b).lc = (settle v b).lc := by
  unfold finish completeLeave leaveComplete
  rw [(settle_evolves v b).leaving, h]
  rfl

theorem finish_noFrames {v : View} {b : Blocks} (h : b.du.leaving = false) (ha : acceptsFrames b.station = false)
    (hn : b.NoFrames) : (finish v b).NoFrames := by
  unfold Blocks.NoFrames
  rw [finish_lc h]
  exact (settle_link v b).silent ha hn

theorem finish_stands {v : View} {b : Blocks} {body : FrameBody} (h : b.du.leaving = false) (hbody : body.isHold = true)
    (hs : b.Stands body) : (finish v b).Stands body := by
  unfold Blocks.Stands
  rw [finish_lc h]
  exact (settle_link v b).holds body hbody hs

end Sys2Proof.Machine
end

section
/-! What the hearing of a frame leaves alone once the Presence Unit has recorded its sender: the frame in transmission, the
Peer Table, the notices raised so far, and that no LEAVE sequence is in progress. -/

namespace Sys2Proof.Machine

structure Attends (b c : Blocks) : Prop where
  tx : c.lc.tx = b.lc.tx
  peers : c.pu.peers = b.pu.peers
  conflict : c.pu.conflictRaised = b.pu.conflictRaised
  reported : ∀ n, b.reported n → c.reported n
  leaving : b.du.leaving = false → c.du.leaving = false

theorem Attends.refl (b : Blocks) : Attends b b := ⟨rfl, rfl, rfl, fun _ => id, id⟩

theorem Attends.trans {a b c : Blocks} (h : Attends a b) (k : Attends b c) : Attends a c :=
  ⟨k.tx.trans h.tx, k.peers.trans h.peers, k.conflict.trans h.conflict, fun n x => k.reported n (h.reported n x),
    fun x => k.leaving (h.leaving x)⟩

theorem Attends.ite {p : Prop} [Decidable p] {a b c : Blocks} (h : Attends a b) (k : Attends a c) :
    Attends a (if p then b else c) := by
  split
  · exact h
  · exact k

theorem Evolves.attends {b c : Blocks} (h : Evolves b c) : Attends b c where
  tx := by
    have k := congrArg (fun x : Blocks => x.lc.tx) h.core
    exact k
  peers := by
    have k := congrArg (fun x : Blocks => x.pu.peers) h.core
    exact k
  conflict := by
    have k := congrArg (fun x : Blocks => x.pu.conflictRaised) h.core
    exact k
  reported := fun _ => h.reported
  leaving := fun hl => h.leaving.trans hl

/-- A change of the Catch-up Unit, the Handler Record, the Insertion Watch and the Dispatch Unit's records alone. -/
theorem Attends.of_rest {b c : Blocks} (hlc : c.lc = b.lc) (hpu : c.pu = b.pu) (hcli : c.cli = b.cli)
    (hl : c.du.leaving = b.du.leaving) : Attends b c :=
  ⟨congrArg LinkController.tx hlc, congrArg PresenceUnit.peers hpu, congrArg PresenceUnit.conflictRaised hpu,
    fun n => by simp only [Blocks.reported, hcli]; exact id, fun h => hl.trans h⟩

theorem setCu_attends (u : CatchUpUnit) (b : Blocks) : Attends b { b with cu := u } := .of_rest rfl rfl rfl rfl

theorem setHr_attends (r : HandlerRecord) (b : Blocks) : Attends b { b with hr := r } := .of_rest rfl rfl rfl rfl

theorem setIw_attends (w : InsertionWatch) (b : Blocks) : Attends b { b with iw := w } := .of_rest rfl rfl rfl rfl

theorem setDu_attends (d : DispatchUnit) (b : Blocks) (h : d.leaving = b.du.leaving) : Attends b { b with du := d } :=
  .of_rest rfl rfl rfl h

theorem Attends.foldOver {α : Type} {f : List α → Blocks → Blocks} {g : α → Blocks → Blocks} (hnil : ∀ b, f [] b = b)
    (hcons : ∀ x xs b, f (x :: xs) b = f xs (g x b)) (hg : ∀ x b, Attends b (g x b)) (xs : List α) :
    ∀ b, Attends b (f xs b) := by
  induction xs with
  | nil => exact fun b => by rw [hnil]; exact .refl b
  | cons x xs ih => exact fun b => by rw [hcons]; exact (hg x b).trans (ih _)

theorem raise_attends (n : Notice) (b : Blocks) : Attends b (raise n b) := (raise_evolves n b).attends

theorem raiseIf_attends (c : Bool) (n : Notice) (b : Blocks) : Attends b (raiseIf c n b) := (raiseIf_evolves c n b).attends

theorem offer_attends (body : FrameBody) (t : Nat) (o : Owner) (host : Bool) (b : Blocks) :
    Attends b (offer body t o host b) := (offer_evolves body t o host b).attends

theorem withdrawAll_attends (p : FrameBody → Bool) (b : Blocks) : Attends b (withdrawAll p b) :=
  (withdrawAll_evolves p b).attends

theorem markDue_attends (b : Blocks) : Attends b (markDue b) := (markDue_evolves b).attends

/-! ### Holds, releases and reconcile -/

theorem autoHold_attends (v : View) (t : HoldTarget) (l : Level) (r : Reason) (b : Blocks) :
    Attends b (autoHold v t l r b) := by
  have hpending : Attends b (keepPending ⟨t, l, r⟩ b) := by
    unfold keepPending
    split <;> exact .of_rest rfl rfl rfl rfl
  have hserial : Attends b { b with cli := { b.cli with serial := nextSerial v b + 1 } } :=
    ⟨rfl, rfl, rfl, fun _ => id, id⟩
  exact .ite hpending (.ite (.refl b) (.ite (raise_attends _ b) (hserial.trans (offer_attends _ _ _ _ _))))

theorem retryHolds_attends (v : View) : ∀ (ps : List PendingHold) (b : Blocks), Attends b (retryHolds v ps b) :=
  .foldOver (fun _ => rfl) (fun _ _ _ => rfl) fun _ b => autoHold_attends v _ _ _ b

theorem setReleases_attends (rs : List ReleaseRec) (b : Blocks) : Attends b (setReleases rs b) := setDu_attends _ b rfl

theorem updateRelease_attends (lot : Nat) (f : ReleaseRec → ReleaseRec) (b : Blocks) :
    Attends b (updateRelease lot f b) := .of_rest rfl rfl rfl rfl

theorem pruneReleases_attends (v : View) : ∀ (rs : List ReleaseRec) (b : Blocks), Attends b (pruneReleases v rs b) :=
  .foldOver (fun _ => rfl) (fun _ _ _ => rfl) fun _ b =>
    .ite (.refl b) (.ite ((setReleases_attends _ b).trans (withdrawAll_attends _ _)) (setReleases_attends _ b))

theorem checkOwned_attends (v : View) (l : LotRec) (b : Blocks) : Attends b (checkOwned v l b) := by
  have hensure : Attends b (ensureRelease l.lot b) := by
    unfold ensureRelease
    split
    · exact .refl b
    · exact .of_rest rfl rfl rfl rfl
  have hcount : ∀ c, Attends c (countHold v l.lot c) := fun c => by
    unfold countHold
    split
    · exact .ite (.refl c) ((updateRelease_attends _ _ c).trans (autoHold_attends ..))
    · exact .refl c
  have hship : ∀ c, Attends c (enqueueShip l c) := fun c => by
    unfold enqueueShip
    split
    · exact .ite (.refl c) ((updateRelease_attends _ _ c).trans (offer_attends ..))
    · exact .refl c
  have hwaiting : ∀ c, Attends c (releaseWaiting l.lot c) := fun c => by
    unfold releaseWaiting
    split
    · exact (updateRelease_attends _ _ c).trans (raiseIf_attends _ _ _)
    · exact .refl c
  exact hensure.trans (.ite ((updateRelease_attends _ _ _).trans (hcount _))
    (.ite (updateRelease_attends _ _ _) (.ite ((updateRelease_attends _ _ _).trans (hship _)) (hwaiting _))))

theorem releaseChecks_attends (v : View) (b : Blocks) : Attends b (releaseChecks v b) := by
  have hcheck : ∀ (ls : List LotRec) (c : Blocks), Attends c (checkLots v ls c) :=
    .foldOver (fun _ => rfl) (fun _ _ _ => rfl) fun l c => .ite (checkOwned_attends v l c) (.refl c)
  exact .ite ((pruneReleases_attends v _ b).trans (hcheck _ _)) (.refl b)

theorem haltStep_attends (b : Blocks) : Attends b (haltStep b) := .of_rest rfl rfl rfl rfl

theorem reportLost_attends (e : QueueEntry) (c : ClaimLostCause) (b : Blocks) : Attends b (reportLost e c b) :=
  .ite (raise_attends _ b) (.ite (.of_rest rfl rfl rfl rfl) (raise_attends _ b))

theorem removeEntry_attends (v : View) (a : Bool) (e : QueueEntry) (b : Blocks) : Attends b (removeEntry v a e b) := by
  have hdrop : Attends b (markDue { b with du := { b.du with
      queue := b.du.queue.filter fun x => !(x.lot == e.lot && x.step == e.step) } }) := .of_rest rfl rfl rfl rfl
  have hwithdraw := (hdrop.trans (withdrawAll_attends (isStartOf e.lot e.step) _)).trans
    (withdrawAll_attends (· == .cede e.lot e.step) _)
  have hhalt := hwithdraw.trans (Attends.ite (p := beforeRun e.phase = true) (.refl _) (haltStep_attends _))
  unfold removeEntry
  simp only
  split
  · exact hhalt.trans (reportLost_attends e _ _)
  · exact hhalt

theorem reconcile_attends (v : View) (a : Bool) (b : Blocks) : Attends b (reconcile v a b) := by
  have hremove : ∀ (es : List QueueEntry) (c : Blocks), Attends c (removeLost v a es c) :=
    .foldOver (fun _ => rfl) (fun _ _ _ => rfl) fun e c => .ite (.refl c) (removeEntry_attends v a e c)
  exact (hremove _ b).trans (upkeepRequest_evolves _).attends

/-! ### Changes of the station state (R26, R29, R75) -/

theorem endSession_attends (b : Blocks) : Attends b (endSession b) := by
  unfold endSession
  split
  · exact (setCu_attends _ b).trans (withdrawAll_attends _ _)
  · exact .refl b

theorem enqueueGive_attends (k : Nat) (b : Blocks) : Attends b (enqueueGive k b) := .ite (.refl b) (offer_attends ..)

theorem reofferOwed_attends (v : View) (b : Blocks) : Attends b (reofferOwed v b) := by
  have hgives : ∀ (ks : List Nat) (c : Blocks), Attends c (enqueueGives ks c) :=
    .foldOver (fun _ => rfl) (fun _ _ _ => rfl) enqueueGive_attends
  have htake : ∀ c, Attends c (reofferTake c) := fun c => by
    unfold reofferTake
    split
    · split
      · exact .ite (.refl c) (offer_attends ..)
      · exact .refl c
    · exact .refl c
  have htally : ∀ c, Attends c (reofferTally c) := fun c => by
    unfold reofferTally
    split
    · exact (setIw_attends _ c).trans (offer_attends ..)
    · exact .refl c
  have hholds : ∀ c, Attends c (retryPendingHolds v c) := fun c =>
    ((setIw_attends { c.iw with pendingHolds := [] } c).trans
      (setDu_attends { c.du with pendingHolds := [] } _ rfl)).trans (retryHolds_attends v _ _)
  exact ((hgives _ b).trans (htake _)).trans ((htally _).trans (hholds _))

theorem enterState_attends (v : View) (new : StationState) (b : Blocks) : Attends b (enterState v new b) := by
  have hset : Attends b { b with pu := { b.pu with
      station := new, beaconTimer := if beacons new then some v.cfg.beaconInterval else none } } :=
    ⟨rfl, rfl, rfl, fun _ => id, id⟩
  have hleave : ∀ c, Attends c (leaveMembership c) := fun c =>
    ((setDu_attends { c.du with timers := [] } c rfl).trans (withdrawAll_attends FrameBody.isBid _)).trans
      (endSession_attends _)
  have hbeacon := hset.trans (Attends.ite (p := beacons new = true) (offer_attends blankBeacon allStations .pu false _) (.refl _))
  have hmember := hbeacon.trans (Attends.ite (p := (isMember b.station && !isMember new) = true) (hleave _) (.refl _))
  have hworks := hmember.trans (Attends.ite (p := isWorking new = true) (.refl _) (setReleases_attends [] _))
  exact (hworks.trans (Attends.ite (p := acceptsFrames new = true) (reofferOwed_attends v _) (.refl _))).trans
    (markDue_attends _)

theorem orphanCheck_attends (v : View) (b : Blocks) : Attends b (orphanCheck v b) := by
  have heach : ∀ (ps : List PeerRec) (c : Blocks), Attends c (orphanEach v ps c) :=
    .foldOver (fun _ => rfl) (fun _ _ _ => rfl) fun _ c => .ite (offer_attends _ _ _ _ c) (.refl c)
  exact .ite (heach _ b) (.refl b)

theorem askAgain_attends (v : View) (l k : Nat) (b : Blocks) : Attends b (askAgain v l k b) := by
  unfold askAgain
  split
  · exact (askKit_evolves v _ _ _ b).attends
  · exact .refl b

theorem isolate_attends (v : View) (c : AttemptCause) (b : Blocks) : Attends b (isolate v c b) := by
  have henter := (enterState_attends v .isolated b).trans (raise_attends (.isolated c) _)
  refine (henter.trans ?_).trans (releaseChecks_attends v _)
  split
  · exact .ite ((endRequest_evolves _).attends.trans (askAgain_attends v _ _ _)) (.refl _)
  · exact .refl _

theorem failAttempt_attends (v : View) (c : AttemptCause) (b : Blocks) : Attends b (failAttempt v c b) := by
  have hfailed : Attends b (attemptFailed v c b) :=
    ((withdrawAll_attends isCatchReq b).trans (setCu_attends _ _)).trans (raise_attends _ _)
  rw [failAttempt_eq]
  exact .ite (hfailed.trans (isolate_attends v c _)) hfailed

theorem startCatchUp_attends (v : View) (b : Blocks) : Attends b (startCatchUp v b) := by
  unfold startCatchUp beginAttempt
  simp only
  split
  · exact (setCu_attends _ b).trans (offer_attends ..)
  · exact (setCu_attends _ b).trans (failAttempt_attends ..)

theorem abandonLeave_attends (c : LeaveFailedCause) (b : Blocks) : Attends b (abandonLeave c b) := by
  have hclear : ∀ (es : List QueueEntry) (d : Blocks), Evolves d (clearLeaveCauses es d) := by
    intro es
    induction es with
    | nil => exact .refl
    | cons e es ih => exact fun d => (Evolves.ite (clearCede_evolves .leave e.lot e.step d) (.refl d)).trans (ih _)
  have hleaving : Attends b (markDue { b with du := { b.du with leaving := false } }) :=
    ⟨rfl, rfl, rfl, fun _ => id, fun _ => rfl⟩
  exact .ite ((hleaving.trans (hclear _ _).attends).trans (raise_attends _ _)) (.refl b)

theorem abandonLeave_leaving (c : LeaveFailedCause) (b : Blocks) : (abandonLeave c b).du.leaving = false := by
  by_cases h : b.du.leaving = true
  · have hclear : ∀ (es : List QueueEntry) (d : Blocks), (clearLeaveCauses es d).du.leaving = d.du.leaving := by
      intro es
      induction es with
      | nil => exact fun _ => rfl
      | cons e es ih =>
        exact fun d => (ih _).trans (Evolves.ite (clearCede_evolves .leave e.lot e.step d) (.refl d)).leaving
    simp only [abandonLeave, h, if_true, raise_du, hclear, markDue_du]
  · have hsame : abandonLeave c b = b := by simp only [abandonLeave, h, Bool.false_eq_true, if_false]
    rw [hsame]
    exact Bool.eq_false_of_not_eq_true h

theorem diverge_attends (v : View) (c : DivergedCause) (b : Blocks) : Attends b (diverge v c b) :=
  (((enterState_attends v .joining b).trans (raise_attends _ _)).trans (abandonLeave_attends _ _)).trans
    (startCatchUp_attends v _)

theorem unpark_attends (v : View) (b : Blocks) : Attends b (unpark v b) :=
  .ite (((enterState_attends v .active b).trans (orphanCheck_attends v _)).trans (reconcile_attends v false _)) (.refl b)

theorem setFitted_attends (k : Option Nat) (b : Blocks) : Attends b (setFitted k b) := .of_rest rfl rfl rfl rfl

theorem setGives_attends (ks : List Nat) (b : Blocks) : Attends b { b with hr := { b.hr with gives := ks } } :=
  setHr_attends _ b

/-- The request in FITTING whose candidate is not here any longer chooses again (R110). -/
theorem agreeRequest_attends (v : View) (b : Blocks) :
    Attends b (match b.hr.request with
      | some r =>
        match r.phase, r.candidate with
        | .fitting, some k => if kitAtHere v k then b else chooseKit v r b
        | _, _ => b
      | none => b) := by
  split
  · split
    · exact .ite (.refl b) (chooseKit_evolves v _ b).attends
    · exact .refl b
  · exact .refl b

theorem agreeWithReplica_attends (v : View) (b : Blocks) : Attends b (agreeWithReplica v b) := by
  unfold agreeWithReplica
  refine Attends.trans ?_ (agreeRequest_attends v _)
  refine Attends.trans ?_ (setGives_attends _ _)
  split
  · exact .ite (.refl b) ((setFitted_attends none b).trans (raise_attends _ _))
  · exact .refl b

theorem bringIntoLine_attends (v : View) (a : Bool) (b : Blocks) : Attends b (bringIntoLine v a b) := by
  have hserial : Attends (reconcile v a b) (if a then
      { reconcile v a b with cli := { (reconcile v a b).cli with serial := serialAfterCatchUp v } }
    else reconcile v a b) := .ite ⟨rfl, rfl, rfl, fun _ => id, id⟩ (.refl _)
  exact (((reconcile_attends v a b).trans hserial).trans (agreeWithReplica_attends v _)).trans (releaseChecks_attends v _)

/-! ### The signal of an application (R39) -/

theorem replicaNotices_attends (v : View) (sig : Signal) (b : Blocks) : Attends b (replicaNotices v sig b) := by
  unfold replicaNotices
  split
  · exact raiseIf_attends _ _ b
  · exact raiseIf_attends _ _ b
  · split
    · exact (raiseIf_attends _ _ b).trans (raiseIf_attends _ _ _)
    · exact .refl b
  · exact .refl b

theorem markEntries_attends (v : View) (sig : Signal) (b : Blocks) : Attends b (markEntries v sig b) :=
  Attends.trans (b := { b with du := { b.du with queue := b.du.queue.map (markEntry v sig) } }) (.of_rest rfl rfl rfl rfl)
    (.ite (haltStep_attends _) (.refl _))

theorem queueWon_attends (lot k : Nat) (b : Blocks) : Attends b (queueWon lot k b) := setDu_attends _ b rfl

theorem claimWon_attends (v : View) (lot k : Nat) (b : Blocks) : Attends b (claimWon v lot k b) := by
  unfold claimWon
  split
  · next s _ =>
    exact ((queueWon_attends lot k b).trans (raise_attends (.claimWon lot k (tier v b s.spec)) _)).trans
      (.ite (setCede_evolves .leave lot k _).attends (.refl _))
  · exact .refl b

theorem stepStarted_attends (v : View) (lot k kit : Nat) (b : Blocks) : Attends b (stepStarted v lot k kit b) := by
  have hcount : ∀ c, Attends c (startCount v lot k kit c) := fun c => by
    unfold startCount
    split
    · exact .of_rest rfl rfl rfl rfl
    · exact .refl c
  exact ((updateEntry_evolves lot k (fun e => { e with phase := .running }) (fun _ => rfl) b).attends.trans
    (hcount _)).trans (abandonLeave_attends _ _)

theorem setCounters_attends (c : StepCounters) (b : Blocks) : Attends b (setCounters c b) := setIw_attends _ b

theorem ownTally_attends (v : View) (sig : Signal) (lot k kit e p f l i : Nat) (b : Blocks) :
    Attends b (ownTally v sig lot k kit e p f l i b) := by
  have htally : ∀ c, Attends c (enqueueTally v lot c) := fun c =>
    .ite (.refl c) (.ite (offer_attends _ _ _ _ c) (.of_rest rfl rfl rfl rfl))
  have hrefuse : ∀ x, Attends b (refuseTally v lot k e x b) := fun x =>
    (raise_attends _ b).trans (.ite ((setCounters_attends _ _).trans (htally _)) (.refl _))
  unfold ownTally
  refine .ite (raise_attends _ b) ?_
  split
  · exact hrefuse _
  · exact .refl b

theorem raiseAssigned_attends (s : Nat) : ∀ (ls : List LotRec) (b : Blocks), Attends b (raiseAssigned s ls b) :=
  .foldOver (fun _ => rfl) (fun _ _ _ => rfl) fun _ b => raiseIf_attends _ _ b

theorem dispatchOutcome_attends (v : View) (sig : Signal) (b : Blocks) : Attends b (dispatchOutcome v sig b) := by
  unfold dispatchOutcome
  cases sig.body with
  | bid lot k => exact .ite (claimWon_attends v lot k b) (.refl b)
  | post p => exact .ite (raise_attends _ b) (.refl b)
  | stepStart lot k kit => exact .ite (stepStarted_attends v lot k kit b) (.refl b)
  | stepTally lot k kit e p f l i => exact .ite (ownTally_attends v sig lot k kit e p f l i b) (.refl b)
  | cede lot k =>
    exact .ite (updateEntry_evolves lot k (fun e => { e with cede := none }) (fun _ => rfl) b).attends (.refl b)
  | withdraw lot => exact .ite (raiseIf_attends _ _ b) (raiseIf_attends _ _ b)
  | resume lot => exact .ite (raise_attends _ b) (.refl b)
  | orphan s => exact .ite (raiseAssigned_attends s _ b) (.refl b)
  | _ => exact .refl b

theorem watchOutcome_attends (v : View) (sig : Signal) (b : Blocks) : Attends b (watchOutcome v sig b) := by
  have hlift : ∀ h, Attends b (watchLift v h b) := fun h => by
    have hwindow : Attends b (if coversRunningHead v h b then { b with iw := { b.iw with window := [] } } else b) :=
      .ite (.of_rest rfl rfl rfl rfl) (.refl b)
    refine hwindow.trans ?_
    unfold watchLift
    generalize (if coversRunningHead v h b then { b with iw := { b.iw with window := [] } } else b) = d
    simp only
    split
    · exact .ite (.of_rest rfl rfl rfl rfl) (.refl d)
    · exact .refl d
  unfold watchOutcome
  split
  · split
    · exact .ite (hlift _) (.refl b)
    · exact .refl b
  · exact .refl b

theorem presenceOutcome_attends (v : View) (sig : Signal) (b : Blocks) : Attends b (presenceOutcome v sig b) := by
  have hdiverge : ∀ c, Attends b (divergeIfMember v c b) := fun c => .ite (diverge_attends v c b) (.refl b)
  unfold presenceOutcome
  split
  · exact .ite (unpark_attends v b) (.refl b)
  · exact .ite (hdiverge _) (.refl b)
  · exact .ite (hdiverge _) (.refl b)
  · exact .refl b

theorem takeOutcome_attends (v : View) (sig : Signal) (k : Nat) (b : Blocks) : Attends b (takeOutcome v sig k b) := by
  unfold takeOutcome
  split
  · exact .ite ((setRequest_evolves _ b).trans (raise_evolves _ _)).attends (chooseKit_evolves v _ b).attends
  · exact .ite (.ite (.refl b) ((setHr_attends _ b).trans (enqueueGive_attends k _))) (.refl b)

theorem handlerOutcome_attends (v : View) (sig : Signal) (b : Blocks) : Attends b (handlerOutcome v sig b) := by
  unfold handlerOutcome
  split
  case h_5 => exact .ite (takeOutcome_attends v sig _ b) (.refl b)
  case h_6 => exact .ite (.of_rest rfl rfl rfl rfl) (.refl b)
  case h_7 => exact .refl b
  all_goals exact .ite (raise_attends _ b) (.refl b)

theorem cellOutcome_attends (v : View) (sig : Signal) (b : Blocks) : Attends b (cellOutcome v sig b) := by
  have hheld : ∀ h (es : List QueueEntry) (c : Blocks), Attends c (raiseHeld v h es c) := fun h =>
    .foldOver (fun _ => rfl) (fun _ _ _ => rfl) fun _ c => raiseIf_attends _ _ c
  have hhost : ∀ h c, Attends b (hostHoldNotice h b c) := fun h c => by
    cases c
    case shipped => exact .refl b
    all_goals exact raise_attends _ b
  have hauto : ∀ h c, Attends b (autoHoldNotice h b c) := fun h c => by
    cases c
    case shipped => exact .refl b
    case sameTarget => exact .refl b
    all_goals exact raise_attends _ b
  unfold cellOutcome
  split
  · exact (Attends.ite (.ite (hhost _ _) (hauto _ _)) (.refl b)).trans (.ite (hheld _ _ _) (.refl _))
  · split
    · exact .ite (.ite (raise_attends _ b) (raiseIf_attends _ _ b)) (raiseIf_attends _ _ b)
    · exact raiseIf_attends _ _ b
  · exact .refl b

theorem signalBlocks_attends (v : View) (sig : Signal) (b : Blocks) : Attends b (signalBlocks v sig b) := by
  have hreconcile : ∀ c, Attends c (reconcileOn v sig c) := fun c => .ite (reconcile_attends v false c) (.refl c)
  exact ((((((((replicaNotices_attends v sig b).trans (markEntries_attends v sig _)).trans
    (dispatchOutcome_attends v sig _)).trans (hreconcile _)).trans
    ((enterHead_evolves _).attends.trans (watchOutcome_attends v sig _))).trans (presenceOutcome_attends v sig _)).trans
    (handlerOutcome_attends v sig _)).trans (cellOutcome_attends v sig _)).trans
    ((releaseChecks_attends v _).trans (markDue_attends _))

/-! ### The hearing -/

theorem applyHeard_attends (f : HeardFrame) (s : State) : Attends s.blocks (applyHeard f s).blocks :=
  signalBlocks_attends _ _ _

theorem bufferFrame_attends (v : View) (f : HeardFrame) (b : Blocks) : Attends b (bufferFrame v f b) :=
  .ite (setCu_attends _ b) (failAttempt_attends v _ b)

theorem hearState_attends (h : Heard) (s : State) : Attends s.blocks (hearState h s).blocks := by
  unfold hearState
  split
  · split
    · exact bufferFrame_attends _ _ _
    · exact applyHeard_attends _ s
  · exact .refl _

theorem settle_attends (v : View) (b : Blocks) : Attends b (settle v b) := (settle_evolves v b).attends

theorem applyBuffer_attends : ∀ (fs : List HeardFrame) (s : State), Attends s.blocks (applyBuffer fs s).2.blocks
  | [], s => .refl _
  | f :: fs, s => by
    have h : Attends s.blocks ((applyHeard f s).evaluated).blocks := (applyHeard_attends f s).trans (settle_attends _ _)
    unfold applyBuffer
    simp only
    split
    · exact h
    · exact h.trans (applyBuffer_attends fs _)

theorem completeCatchUp_attends (v : View) (r : Nat) (b : Blocks) : Attends b (completeCatchUp v r b) :=
  ((((setCu_attends b.cu.completed b).trans (enterState_attends v .active _)).trans (raise_attends _ _)).trans
    (orphanCheck_attends v _)).trans (bringIntoLine_attends v true _)

theorem unmarkSpent_attends (v : View) (b : Blocks) : Attends b (unmarkSpent v b) := .of_rest rfl rfl rfl rfl

theorem installSnapshot_attends (a : Assembly) (s : State) : Attends s.blocks (installSnapshot a s).blocks :=
  (((setCu_attends { s.blocks.cu with copy := .empty } s.blocks).trans (unmarkSpent_attends _ _)).trans
    (markDue_attends _)).trans (settle_attends _ _)

theorem installAndComplete_attends (r : Nat) (a : Assembly) (s : State) :
    Attends s.blocks (installAndComplete r a s).blocks := by
  have h : Attends s.blocks (applyBuffer s.blocks.cu.buffer (installSnapshot a s)).2.blocks :=
    (installSnapshot_attends a s).trans (applyBuffer_attends s.blocks.cu.buffer (installSnapshot a s))
  unfold installAndComplete
  rcases hbuffer : applyBuffer s.blocks.cu.buffer (installSnapshot a s) with ⟨room, t⟩
  rw [hbuffer] at h
  cases room
  · simp only [State.mapBlocks_blocks]
    exact h.trans (failAttempt_attends t.view .holdFull t.blocks)
  · simp only [State.mapBlocks_blocks]
    exact h.trans (completeCatchUp_attends t.view r t.blocks)

theorem endHeard_attends (r : Nat) (c d : Word32) (n : Nat) (s : State) :
    Attends s.blocks (endHeard r c d n s).blocks := by
  unfold endHeard
  split
  · split
    · exact (setCu_attends _ _).trans (failAttempt_attends ..)
    · exact installAndComplete_attends r _ s
  · exact .refl _

theorem entryHeard_attends (v : View) (i : Nat) (r : Option SnapRecord) (b : Blocks) : Attends b (entryHeard v i r b) := by
  unfold entryHeard
  split
  · have hrestart : Attends b (restartSnapshot b) := setCu_attends _ b
    refine hrestart.trans ?_
    simp only
    split
    · split
      · exact setCu_attends _ _
      · exact failAttempt_attends ..
    · exact failAttempt_attends ..
  · exact .refl b

theorem deferHeard_attends (v : View) (b : Blocks) : Attends b (deferHeard v b) := by
  unfold deferHeard
  refine .ite ?_ (.refl b)
  simp only
  split
  · exact (setCu_attends _ b).trans (failAttempt_attends ..)
  · exact setCu_attends _ b

theorem setSession_attends (ss : Option ServeSession) (b : Blocks) : Attends b (setSession ss b) := setCu_attends _ b

theorem serveReq_attends (r : Nat) (b : Blocks) : Attends b (serveReq r b) := by
  have hopen : ∀ c, Attends c (openSession r c) := fun c =>
    (setSession_attends _ c).trans (offer_attends ..)
  unfold serveReq
  refine .ite ?_ (.refl b)
  split
  · exact hopen b
  · refine .ite ?_ (offer_attends ..)
    split
    · exact .refl b
    · exact (endSession_attends b).trans (hopen _)

theorem referenceHeard_attends (r : Nat) (body : FrameBody) (s : State) :
    Attends s.blocks (referenceHeard r body s).blocks := by
  unfold referenceHeard
  split
  · exact deferHeard_attends ..
  · exact .ite (setCu_attends _ _) (.ite (failAttempt_attends ..) (.refl _))
  · exact entryHeard_attends ..
  · exact entryHeard_attends ..
  · exact endHeard_attends ..
  · exact .refl _

theorem hearCatchUp_attends (h : Heard) (s : State) : Attends s.blocks (hearCatchUp h s).blocks := by
  unfold hearCatchUp
  split
  · split
    · exact .ite (setCu_attends _ _) (.refl _)
    · split
      · exact serveReq_attends ..
      · exact .refl _
  · split
    · exact .ite (failAttempt_attends ..) (.refl _)
    · exact .refl _
  · split
    · exact referenceHeard_attends ..
    · exact .refl _

end Sys2Proof.Machine
end

section
/-! The Floor Link's transmitter: transmit start (O12), and transmissions that do not reach their end (O13). -/

namespace Sys2Proof.Machine

/-- A command whose effect on the blocks ends with the evaluations. -/
theorem next_finish {s : State} {f : View → Blocks → Blocks} {b : Blocks} (h : f s.view s.blocks = finish s.view b) :
    (.next (s.mapBlocks f) : Host.Outcome State Fault Refusal) = .next (State.finish { s with blocks := b }) :=
  congrArg (fun c => Host.Outcome.next { s with blocks := c }) h

/-! ### Transmit start (R12, R13) -/

/-- An owner's test does not read the medium. -/
theorem valid_setMedium (v : View) (b : Blocks) (m : Medium) (e : SendEntry) :
    valid v (setLc { b.lc with medium := m } b) e = valid v b e := rfl

theorem transmitStart_idle {v : View} {b : Blocks} (htx : b.lc.tx = none) :
    transmitStart v b = finish v (startFirst v (startBound b) (setLc { b.lc with medium := .idle } b)) := by
  simp only [transmitStart, htx]
  rfl

theorem startFirst_valid {v : View} {b : Blocks} {e : SendEntry} (n : Nat) (hfind : b.lc.queue.find? (allowed b) = some e)
    (hvalid : valid v b e = true) : startFirst v (n + 1) b = startEntry v e b := by
  simp only [startFirst, hfind, hvalid, if_true]

theorem startFirst_invalid {v : View} {b : Blocks} {e : SendEntry} (n : Nat) (hfind : b.lc.queue.find? (allowed b) = some e)
    (hvalid : valid v b e = false) : startFirst v (n + 1) b = startFirst v n (rejectFirst v e b) := by
  simp only [startFirst, hfind, hvalid, Bool.false_eq_true, if_false]

theorem startFirst_none {v : View} {b : Blocks} (n : Nat) (hfind : b.lc.queue.find? (allowed b) = none) :
    startFirst v n b = b := by
  cases n with
  | zero => rfl
  | succ n => simp only [startFirst, hfind]

/-- The first allowed entry, found valid, starts (R12). -/
theorem transmitStart_starts {v : View} {b : Blocks} {e : SendEntry} (htx : b.lc.tx = none)
    (hfind : b.lc.queue.find? (allowed b) = some e) (hvalid : valid v b e = true) :
    transmitStart v b = finish v (startEntry v e (setLc { b.lc with medium := .idle } b)) :=
  (transmitStart_idle htx).trans (congrArg (finish v) (startFirst_valid _ hfind hvalid))

/-- The Send Queue with its first allowed entry started. -/
theorem startEntry_eq (v : View) (e : SendEntry) (b : Blocks) :
    startEntry v e (setLc { b.lc with medium := .idle } b) = { b with
      cu := if isSnapBegin e.body then
          { b.cu with
            copy := .serving v.rep
            session := b.cu.session.map fun x =>
              { x with phase := .sending, count := v.count, digest := v.digest, next := 0 } }
        else b.cu
      lc := { b.lc with
        queue := markFirst (fun x => kindAllowed b.station x.body.kind) b.lc.queue
        tx := some ⟨contentNow v b e.body, e.target⟩
        medium := .sending } } := by
  unfold startEntry
  cases isSnapBegin e.body <;> rfl

theorem refill_of_no_offers (n : Nat) (lc : LinkController) (h : lc.waiting = []) : refill n lc = lc := by
  unfold refill
  induction n with
  | zero => rfl
  | succ n ih =>
    have hgrant : grantOne lc = lc := by
      unfold grantOne
      rw [h, (nextOffer_none []).mpr rfl, ite_self]
    simp only [grants, hgrant, ih]

/-- A BID is valid for a WAITING step alone (R85). -/
theorem bidValid_of_not_waiting {v : View} {b : Blocks} {lot k : Nat}
    (hstep : ∀ x, v.rep.step? lot k = some x → x.state.isWaiting = false) : bidValid v b lot k = false := by
  simp only [Replica.step?] at hstep
  unfold bidValid
  cases hlot : v.rep.lot? lot with
  | none => rfl
  | some l =>
    simp only [hlot, Option.bind_some] at hstep ⊢
    cases hk : l.step? k with
    | none => rfl
    | some s => simp only [hstep s hk, Bool.false_and]

/-- A lone invalid BID is removed, and nothing starts (R85). -/
theorem transmitStart_staleBid {v : View} {b : Blocks} {e : SendEntry} {lot k : Nat} (htx : b.lc.tx = none)
    (hqueue : b.lc.queue = [e]) (hwaiting : b.lc.waiting = []) (hbody : e.body = .bid lot k)
    (hmember : isMember b.station = true) (hstep : ∀ x, v.rep.step? lot k = some x → x.state.isWaiting = false) :
    transmitStart v b = finish v { b with
      lc := { b.lc with queue := [], medium := .idle }, du := { b.du with evalDue := true } } := by
  have hallowed : allowed b e = true := by
    unfold allowed
    revert hmember
    cases b.station <;> simp [isMember, kindAllowed]
  have hfind : ∀ m, (setLc { b.lc with medium := m } b).lc.queue.find? (allowed (setLc { b.lc with medium := m } b))
      = some e := fun m => by
    change b.lc.queue.find? (allowed b) = some e
    rw [hqueue, List.find?_cons_of_pos hallowed]
  have hinvalid : valid v b e = false := by
    have hbid : valid v b e = bidValid v b lot k := by simp only [valid, hbody]
    rw [hbid, bidValid_of_not_waiting hstep]
  rw [transmitStart_idle htx, show startBound b = startBound b - 1 + 1 by simp [startBound],
    startFirst_invalid _ (hfind .idle) hinvalid]
  have hreject : rejectFirst v e (setLc { b.lc with medium := .idle } b) = { b with
      lc := { b.lc with queue := [], medium := .idle }, du := { b.du with evalDue := true } } := by
    have hdrop : dropFirst (setLc { b.lc with medium := .idle } b)
        = { b with lc := { b.lc with queue := [], medium := .idle } } := by
      have hremove : removeFirst (allowed b) b.lc.queue = [] := by
        simp only [hqueue, removeFirst, hallowed, if_true]
      unfold dropFirst
      change setLc { b.lc with medium := .idle, queue := removeFirst (allowed b) b.lc.queue } b = _
      rw [hremove]
      rfl
    unfold rejectFirst grantFreed toldInvalid
    rw [hdrop, hbody]
    simp only [markDue_lc]
    rw [refill_of_no_offers 1 { b.lc with queue := [], medium := .idle } hwaiting]
    rfl
  rw [hreject, startFirst_none _ rfl]

/-- Settles O12. -/
theorem transmitStartSendsOrRemoves : Obligations.TransmitStartSendsOrRemoves := by
  have hstart : ∀ (s : State) (e : SendEntry), s.blocks.lc.tx = none →
      s.blocks.lc.queue.find? (fun x => kindAllowed s.blocks.station x.body.kind) = some e →
      valid s.view s.blocks e = true →
      exec .transmitStart s
        = .next (State.finish (s.mapBlocks fun v b => startEntry v e (setLc { b.lc with medium := .idle } b))) :=
    fun s e htx hfind hvalid => next_finish (transmitStart_starts (v := s.view) htx hfind hvalid)
  refine ⟨fun s e htx hfind hvalid => ?_, fun s e old htx hbody hfind => ?_, fun s e lot k htx hq hw hb hm hstep => ?_⟩
  · rw [hstart s e htx hfind hvalid]
    simp only [State.mapBlocks, startEntry_eq]
    rfl
  · have hvalid : valid s.view s.blocks e = true := by
      unfold valid
      rw [hbody]
    refine ⟨_, hstart s e htx hfind hvalid, fun hl => ?_⟩
    have htx := (State.finish_evolves (s.mapBlocks fun v b => startEntry v e (setLc { b.lc with medium := .idle } b))
      (by simpa only [State.mapBlocks, startEntry_eq] using hl)).attends.tx
    rw [htx]
    simp only [State.mapBlocks, startEntry_eq, hbody, contentNow]
    rfl
  · exact next_finish (transmitStart_staleBid (v := s.view) htx hq hw hb hm hstep)

/-! ### A transmission that does not reach its end (R14, R16, R17) -/

theorem stopTx_eq {m : Medium} {t : TxFrame} {f : SendEntry → SendEntry} {b : Blocks}
    (hf : ∀ e, (f e).removal = e.removal) (h : ∀ e ∈ b.lc.queue, e.removal = false) :
    stopTx m t f b = { b with
      cu := if isSnapBegin t.body then
          { b.cu with session := b.cu.session.map fun y => { y with phase := .open } }
        else b.cu
      lc := { b.lc with
        queue := b.lc.queue.map fun e => if e.inTx then { f e with inTx := false } else e
        tx := none, medium := m } } := by
  have hkept : ∀ c : Blocks, c.lc.queue = clearTx b.lc.queue f → dropRemoved c = c := by
    intro c hc
    have hnone : (c.lc.queue.any fun e => e.removal && !e.inTx) = false := by
      rw [hc, List.any_eq_false]
      intro e he
      obtain ⟨x, hx, rfl⟩ := List.mem_map.mp he
      have hx := h x hx
      split <;> simp [hf, hx]
    simp only [dropRemoved, hnone, Bool.false_eq_true, if_false]
  unfold stopTx
  simp only
  cases isSnapBegin t.body
  · exact hkept _ rfl
  · exact hkept _ rfl

/-! The third fault of an entry (R17, R35). -/

theorem enterState_faulted_eq (v : View) (b : Blocks) : enterState v .faulted b = markDue (setReleases []
    (if isMember b.station then leaveMembership { b with pu := { b.pu with station := .faulted, beaconTimer := none } }
     else { b with pu := { b.pu with station := .faulted, beaconTimer := none } })) := by
  by_cases h : isMember b.station = true
  · simp only [enterState, h]
    rfl
  · simp only [enterState, Bool.eq_false_of_not_eq_true h]
    rfl

theorem leaveMembership_noFrames {b : Blocks} (h : b.NoFrames) : (leaveMembership b).NoFrames := by
  have hbids : (withdrawAll FrameBody.isBid { b with du := { b.du with timers := [] } }).NoFrames :=
    withdrawAll_noFrames _ h
  unfold leaveMembership endSession
  split
  · exact withdrawAll_noFrames _ hbids
  · exact hbids

theorem leaveMembership_pu (b : Blocks) : (leaveMembership b).pu = b.pu := by
  unfold leaveMembership endSession
  split <;> rfl

theorem enterState_faulted_noFrames (v : View) {b : Blocks} (h : b.NoFrames) : (enterState v .faulted b).NoFrames := by
  rw [enterState_faulted_eq]
  split
  · exact leaveMembership_noFrames (b := { b with pu := { b.pu with station := .faulted, beaconTimer := none } }) h
  · exact h

theorem enterState_faulted_pu (v : View) (b : Blocks) :
    (enterState v .faulted b).pu = { b.pu with station := .faulted, beaconTimer := none } := by
  rw [enterState_faulted_eq]
  split
  · exact leaveMembership_pu { b with pu := { b.pu with station := .faulted, beaconTimer := none } }
  · rfl

theorem sendFailed_noFrames (v : View) (body : FrameBody) {b : Blocks} (h : b.NoFrames) : (sendFailed v body b).NoFrames := by
  have hend : (endSession b).NoFrames := by
    unfold endSession
    split
    · exact withdrawAll_noFrames _ h
    · exact h
  cases body
  case hold sn t l r => cases r <;> exact h
  case snapBegin => exact hend
  case snapEntry => exact hend
  case snapEnd => exact hend
  all_goals exact h

theorem sendFailedAll_noFrames (v : View) : ∀ (es : List SendEntry) {b : Blocks}, b.NoFrames → (sendFailedAll v es b).NoFrames
  | [], _, h => h
  | e :: es, _, h => sendFailedAll_noFrames v es (sendFailed_noFrames v e.body h)

theorem emptySendQueue_noFrames (v : View) (b : Blocks) : (emptySendQueue v b).NoFrames :=
  sendFailedAll_noFrames v _ ⟨rfl, rfl⟩

theorem clearLeaveCauses_link : ∀ (es : List QueueEntry) (b : Blocks), LinkWork b (clearLeaveCauses es b) :=
  .foldOver (fun _ => rfl) (fun _ _ _ => rfl) fun e b => .ite (clearCede_link .leave e.lot e.step b) (.refl b)

theorem abandonLeave_link (c : LeaveFailedCause) (b : Blocks) : LinkWork b (abandonLeave c b) := by
  have hset : LinkWork b (markDue { b with du := { b.du with leaving := false } }) := .of_eq rfl rfl rfl
  exact .ite ((hset.trans (clearLeaveCauses_link _ _)).trans (raise_link _ _)) (.refl b)

theorem abandonLeave_keeps (c : LeaveFailedCause) (b : Blocks) :
    (abandonLeave c b).cu = b.cu ∧ (abandonLeave c b).pu = b.pu ∧
      (abandonLeave c b).iw.pendingHolds = b.iw.pendingHolds ∧ (abandonLeave c b).du.pendingHolds = b.du.pendingHolds := by
  have hclear : ∀ (es : List QueueEntry) (d : Blocks), (clearLeaveCauses es d).cu = d.cu ∧
      (clearLeaveCauses es d).pu = d.pu ∧ (clearLeaveCauses es d).iw = d.iw ∧
      (clearLeaveCauses es d).du.pendingHolds = d.du.pendingHolds := by
    intro es
    induction es with
    | nil => exact fun _ => ⟨rfl, rfl, rfl, rfl⟩
    | cons e es ih =>
      intro d
      have hclear : ∀ x : Blocks, x = (if e.cede == some .leave then clearCede .leave e.lot e.step d else d) →
          x.cu = d.cu ∧ x.pu = d.pu ∧ x.iw = d.iw ∧ x.du.pendingHolds = d.du.pendingHolds := by
        rintro x rfl
        split <;> exact ⟨rfl, rfl, rfl, rfl⟩
      obtain ⟨hcu, hpu, hiw, hdu⟩ := hclear _ rfl
      obtain ⟨icu, ipu, iiw, idu⟩ := ih (if e.cede == some .leave then clearCede .leave e.lot e.step d else d)
      exact ⟨icu.trans hcu, ipu.trans hpu, iiw.trans hiw, idu.trans hdu⟩
  unfold abandonLeave
  split
  · obtain ⟨hcu, hpu, hiw, hdu⟩ := hclear (markDue { b with du := { b.du with leaving := false } }).du.queue
      (markDue { b with du := { b.du with leaving := false } })
    exact ⟨hcu, hpu, congrArg InsertionWatch.pendingHolds hiw, hdu⟩
  · exact ⟨rfl, rfl, rfl, rfl⟩

/-- What an entry to FAULTED leaves (R35, R61). -/
structure Faulted (b : Blocks) : Prop where
  station : b.station = .faulted
  noFrames : b.NoFrames
  tx : b.lc.tx = none
  beacon : b.pu.beaconTimer = none
  listen : b.pu.listenTimer = none
  park : b.pu.parkTimer = none
  leaving : b.du.leaving = false
  phase : b.cu.phase = .none

theorem enterFaulted_eq (v : View) (b : Blocks) :
    enterFaulted v b = abandonLeave .badState (stopForFault (dropAttempt (enterState v .faulted b))) := rfl

theorem enterFaulted_faulted (v : View) {b : Blocks} (h : b.NoFrames) (htx : b.lc.tx = none) :
    Faulted (enterFaulted v b) := by
  have hpu := enterState_faulted_pu v b
  have hempty : (stopForFault (dropAttempt (enterState v .faulted b))).NoFrames :=
    withdrawAll_noFrames isCatchReq (enterState_faulted_noFrames v h)
  have hdtx : (stopForFault (dropAttempt (enterState v .faulted b))).lc.tx = none :=
    (withdrawAll_attends isCatchReq _).tx.trans ((enterState_tx v _ b).trans htx)
  have hs : (stopForFault (dropAttempt (enterState v .faulted b))).station = .faulted :=
    congrArg PresenceUnit.station hpu
  have hbeacon : (stopForFault (dropAttempt (enterState v .faulted b))).pu.beaconTimer = none :=
    congrArg PresenceUnit.beaconTimer hpu
  rw [enterFaulted_eq]
  generalize hc : stopForFault (dropAttempt (enterState v .faulted b)) = c at *
  obtain ⟨hacu, hapu, _, _⟩ := abandonLeave_keeps .badState c
  have hlink := abandonLeave_link .badState c
  exact
    { station := hlink.station.trans hs
      noFrames := hlink.silent (by rw [hs]; rfl) hempty
      tx := (abandonLeave_attends .badState c).tx.trans hdtx
      beacon := (congrArg PresenceUnit.beaconTimer hapu).trans hbeacon
      listen := by rw [hapu, ← hc]; rfl
      park := by rw [hapu, ← hc]; rfl
      leaving := abandonLeave_leaving _ _
      phase := by rw [hacu, ← hc]; rfl }

theorem stopForFault_attends (b : Blocks) : Attends b (stopForFault b) := ⟨rfl, rfl, rfl, fun _ => id, id⟩

theorem enterFaulted_reported (v : View) (b : Blocks) {n : Notice} (h : b.reported n) : (enterFaulted v b).reported n :=
  ((((enterState_attends v .faulted b).trans ((setCu_attends _ _).trans (withdrawAll_attends isCatchReq _))).trans
    (stopForFault_attends _)).trans (abandonLeave_attends .badState _)).reported n h

theorem Faulted.finish {v : View} {b : Blocks} (h : Faulted b) : Faulted (finish v b) := by
  have he := finish_evolves v b h.leaving
  have hpu : (Machine.finish v b).core.pu = b.core.pu := congrArg Blocks.pu he.core
  exact
    { station := he.station.trans h.station
      noFrames := finish_noFrames h.leaving (by rw [h.station]; rfl) h.noFrames
      tx := he.attends.tx.trans h.tx
      beacon := (congrArg PresenceUnit.beaconTimer hpu : _).trans h.beacon
      listen := (congrArg PresenceUnit.listenTimer hpu : _).trans h.listen
      park := by
        have hstation : (completeLeave v (settle v b)).station = .faulted := by
          unfold completeLeave leaveComplete
          rw [(settle_evolves v b).leaving, h.leaving]
          exact (settle_evolves v b).station.trans h.station
        have hcond : parkCondition v (completeLeave v (settle v b)) = false := by
          unfold parkCondition
          rw [hstation]
          rfl
        simp only [Machine.finish, keepParkTimer, hcond, Bool.false_eq_true, if_false]
      leaving := he.leaving.trans h.leaving
      phase := (congrArg CatchUpUnit.phase he.cu).trans h.phase }

theorem sendFailedAll_attends (v : View) : ∀ (es : List SendEntry) (b : Blocks), Attends b (sendFailedAll v es b) := by
  refine .foldOver (fun _ => rfl) (fun _ _ _ => rfl) fun e b => ?_
  cases e.body
  case hold sn t l r => cases r <;> first | exact raise_attends _ b | exact .of_rest rfl rfl rfl rfl
  case snapBegin => exact endSession_attends b
  case snapEntry => exact endSession_attends b
  case snapEnd => exact endSession_attends b
  case stepStart l k _ => exact ((updateEntry_evolves l k _ (fun e => by split <;> rfl) b).trans (markDue_evolves _)).attends
  all_goals first | exact raise_attends _ b | exact .of_rest rfl rfl rfl rfl

/-- Settles O13. -/
theorem stoppedTransmissionsAreHandled : Obligations.StoppedTransmissionsAreHandled := by
  refine ⟨fun s x htx hremoval => ⟨?_, fun e he hfaults => ?_⟩, fun s x e htx he hfaults => ?_⟩
  · have hlost : arbitrationLost s.view s.blocks = finish s.view (stopTx .receiving x id s.blocks) := by
      simp only [arbitrationLost, htx]
    rw [stopTx_eq (f := id) (fun _ => rfl) hremoval] at hlost
    exact next_finish hlost
  · have hfault : transmitFault s.view s.blocks
        = finish s.view (stopTx (.notIdle 0) x (fun y => { y with faults := y.faults + 1 }) s.blocks) := by
      simp only [transmitFault, htx, LinkController.txEntry?, he, Nat.not_le.mpr hfaults, if_false]
    rw [stopTx_eq (f := fun y => { y with faults := y.faults + 1 }) (fun _ => rfl) hremoval] at hfault
    exact next_finish hfault
  · have hfault : transmitFault s.view s.blocks = finish s.view (linkFault s.view e s.blocks) := by
      simp only [transmitFault, htx, LinkController.txEntry?, he, hfaults, if_true]
    refine ⟨s.mapBlocks transmitFault, rfl, ?_⟩
    have hempty : (linkFault s.view e s.blocks) = enterFaulted s.view (raise (.linkFault e.body.kind e.body.subkind)
        (emptySendQueue s.view (sendFailed s.view e.body (setLc { (endTx (.notIdle 0) s.blocks).lc with
          queue := (endTx (.notIdle 0) s.blocks).lc.queue.filter fun y => !y.inTx } (endTx (.notIdle 0) s.blocks))))) := rfl
    have hfaulted : Faulted (linkFault s.view e s.blocks) := by
      rw [hempty]
      refine enterFaulted_faulted _ (emptySendQueue_noFrames _ _) ?_
      exact (sendFailedAll_attends _ _ _).tx.trans
        ((sendFailedAll_attends s.view [e] (setLc { (endTx (.notIdle 0) s.blocks).lc with
          queue := (endTx (.notIdle 0) s.blocks).lc.queue.filter fun y => !y.inTx } (endTx (.notIdle 0) s.blocks))).tx)
    have hreported : (linkFault s.view e s.blocks).reported (.linkFault e.body.kind e.body.subkind) := by
      rw [hempty]
      exact enterFaulted_reported _ _ (raise_reported _ _)
    have hend : Faulted (s.mapBlocks transmitFault).blocks := by
      simp only [State.mapBlocks, hfault]
      exact hfaulted.finish
    refine ⟨hend.station, hend.noFrames.1, hend.noFrames.2, hend.tx, hend.beacon, hend.listen, hend.park, hend.leaving,
      hend.phase, ?_⟩
    simp only [State.mapBlocks, hfault]
    exact (finish_evolves _ _ hfaulted.leaving).reported hreported

end Sys2Proof.Machine
end

section
/-! The frames that change the floor (O17 to O22): what each leaves of the replica (R42, R48 to R60). -/

namespace Sys2Proof.Machine

/-! ### The application -/

/-- The end of a frame by which a state frame is heard leaves the replica as its application does. -/
theorem frameEnd_replica {s : State} {r : Reception} {sender : Nat} {auth : Level} {body : FrameBody}
    (h : s.Hearing r sender auth body) :
    ∃ t, exec (.frameEnd r) s = .next t ∧ t.re.replica = applyBody s.re.replica auth sender body := by
  obtain ⟨t, ht, hre⟩ := frameEnd_re h
  exact ⟨t, ht, by rw [hre]; rfl⟩

/-- The hold history test reads the Hold List, so its own result gives the same test. -/
theorem testHistory_lots (r : Replica) : (testHistory r).lots = r.lots.map fun l => l.tested (testHistory r) :=
  List.map_congr_left fun _ _ => tested_congr (r := r) (r' := testHistory r) rfl _

@[simp] theorem testHistory_holds (r : Replica) : (testHistory r).holds = r.holds := rfl

@[simp] theorem testHistory_kits (r : Replica) : (testHistory r).kits = r.kits := rfl

@[simp] theorem testHistory_ring (r : Replica) : (testHistory r).ring = r.ring := rfl

theorem testHistory_kit? (r : Replica) (n : Nat) : (testHistory r).kit? n = r.kit? n := rfl

/-- A lot of a replica with the same Hold List, after the hold history test. -/
theorem testHistory_lot?_of_holds {r r' : Replica} (h : r'.holds = r.holds) (n : Nat) :
    (testHistory r').lot? n = (r'.lot? n).map fun l => l.tested r := by
  rw [testHistory_lot?, map_tested_congr h]

/-! ### Steps (R49 to R51) -/

theorem setStep_tested {r : Replica} {lot k : Nat} {x : StepRec} (f : Nat → StepState) (hx : r.step? lot k = some x) :
    testHistory (r.setStep lot k f) = r.withStep lot k (f x.state.entered) := by
  simp only [Replica.setStep, hx, testHistory, Replica.withStep, Replica.updateLot, List.map_map]
  congr 1
  refine List.map_congr_left fun l _ => ?_
  simp only [Function.comp, beq_iff_eq, setStep_eq_withStep]
  rfl

theorem step?_of_lot {r : Replica} {lot k : Nat} {l : LotRec} {x : StepRec} (hl : r.lot? lot = some l)
    (hx : l.step? k = some x) : r.step? lot k = some x := by
  simp only [Replica.step?, hl, Option.bind_some, hx]

/-- A frame with effect that sets one step. -/
theorem applyBody_setStep {r : Replica} {a : Level} {sender lot k : Nat} {body : FrameBody} {x : StepRec}
    {f : Nat → StepState} (hx : r.step? lot k = some x) (heffect : takesEffect r a sender body = true)
    (hf : effectOf r sender body = r.setStep lot k f) :
    applyBody r a sender body = r.withStep lot k (f x.state.entered) := by
  rw [applyBody_effect heffect, hf, setStep_tested f hx]

/-- Settles O17. -/
theorem stepFramesMoveOneStep : Obligations.StepFramesMoveOneStep := by
  intro s r sender auth lot k l x e hl hk
  have hx := step?_of_lot hl hk
  have hclaimed : x.state = .claimed sender e → claimedBy s.re.replica lot k sender = true := fun hst => by
    simp only [claimedBy, hx, hst, StepState.claimedBy, beq_self_eq_true]
  refine ⟨fun hst hsus h => ?_, fun hst h => ?_, fun kit hst h => ?_⟩
  · obtain ⟨t, ht, hre⟩ := frameEnd_replica h
    have heffect : takesEffect s.re.replica auth sender (.bid lot k) = true := by
      simp only [takesEffect, biddable, hl, hk, hst, hsus, StepState.isWaiting, Bool.not_false, Bool.and_self]
    refine ⟨t, ht, ?_⟩
    rw [hre, applyBody_setStep hx heffect rfl, hst, StepState.entered]
  · obtain ⟨t, ht, hre⟩ := frameEnd_replica h
    refine ⟨t, ht, ?_⟩
    rw [hre, applyBody_setStep (body := .cede lot k) hx (hclaimed hst) rfl, hst, StepState.entered]
  · obtain ⟨t, ht, hre⟩ := frameEnd_replica h
    refine ⟨t, ht, ?_⟩
    rw [hre, applyBody_setStep (body := .stepStart lot k kit) hx (hclaimed hst) rfl, hst, StepState.entered]

/-! ### A STEP TALLY (R52) -/

theorem applyTally_rest (r : Replica) (sender lot k kit e p f lo i : Nat) :
    (applyTally r sender lot k kit e p f lo i).holds = r.holds ∧ (applyTally r sender lot k kit e p f lo i).ring = r.ring ∧
      ∀ n, (applyTally r sender lot k kit e p f lo i).kit? n = (r.updateKit kit (raiseCount i)).kit? n := by
  unfold applyTally
  simp only
  split
  · exact ⟨rfl, rfl, fun _ => rfl⟩
  · exact ⟨rfl, rfl, fun _ => rfl⟩

/-- The lots after a STEP TALLY: its own lot spent or passed on, the others untouched. -/
theorem applyTally_lot? (r : Replica) (sender lot k kit e p f lo i n : Nat) :
    (applyTally r sender lot k kit e p f lo i).lot? n =
      if n ≠ lot then r.lot? n
      else if p = 0 then none
      else (r.lot? n).map fun l => passOn sender k p (l.withStep k (.tallied sender kit e p f lo i)) := by
  have hkits : ∀ m, (r.updateKit kit (raiseCount i)).lot? m = r.lot? m := fun _ => rfl
  have hpass : ∀ l : LotRec, (passOn sender k p (l.setStep k (.tallied sender kit e p f lo i))).lot = l.lot := fun l =>
    passOn_lot _ _ _ _
  unfold applyTally
  simp only [setStep_eq_withStep] at hpass ⊢
  by_cases hn : n = lot
  · by_cases hp : p = 0
    · simp [hn, hp, removeLot_lot?]
    · simp [hn, hp, updateLot_lot? _ _ _ _ hpass, hkits]
  · by_cases hp : p = 0
    · simp [hn, hp, removeLot_lot?, hkits]
    · simp [hn, hp, updateLot_lot? _ _ _ _ hpass, hkits]

/-- Settles O18. -/
theorem stepTallyPassesOn : Obligations.StepTallyPassesOn := by
  intro s r sender auth lot k kit e p f lo i l x hl hk hst hbalance h
  obtain ⟨t, ht, hre⟩ := frameEnd_replica h
  have hx := step?_of_lot hl hk
  have heffect : takesEffect s.re.replica auth sender (.stepTally lot k kit e p f lo i) = true := by
    simp [takesEffect, talliable, hx, hst, StepState.runningAt, StepState.kit?, StepState.entered, ← hbalance]
  rw [applyBody_effect heffect] at hre
  obtain ⟨hholds, hring, hkits⟩ := applyTally_rest s.re.replica sender lot k kit e p f lo i
  have hkit? := fun n => updateKit_kit? s.re.replica kit n (raiseCount i) fun _ => rfl
  have hlot? : ∀ n, t.re.replica.lot? n
      = ((applyTally s.re.replica sender lot k kit e p f lo i).lot? n).map fun y => y.tested s.re.replica := fun n => by
    rw [hre]
    exact testHistory_lot?_of_holds hholds n
  refine ⟨t, ht, by rw [hre]; exact hholds, by rw [hre]; exact hring, fun c hc => ?_, fun n hn => ?_, fun n hn => ?_,
    fun hp => ?_, fun hp m hm => ?_⟩
  · rw [hre, testHistory_kit?]
    refine (hkits kit).trans ?_
    rw [hkit?, hc, Option.map_some, if_pos rfl]
    rfl
  · rw [hre, testHistory_kit?]
    refine (hkits n).trans ?_
    simp only [hkit?, hn, if_false, Option.map_id']
  · rw [hlot?, applyTally_lot?, if_pos hn]
  · rw [hlot?, applyTally_lot?, if_neg (not_not_intro rfl), if_pos hp, Option.map_none]
  · have hown : t.re.replica.lot? lot = some ((passOn sender k p m).tested s.re.replica) := by
      rw [hlot?, applyTally_lot?, if_neg (not_not_intro rfl), if_neg hp, hl, hm]
      rfl
    have hlength : m.plan.length = l.plan.length := by
      rw [hm]
      exact List.length_mapIdx
    have hstep? : ∀ j, t.re.replica.step? lot j = (passOn sender k p m).step? j := fun j => by
      rw [Replica.step?, hown, Option.bind_some, tested_step?]
    have hstepm : ∀ j, m.step? j = (l.step? j).map fun y => if j = k then ⟨y.spec, .tallied sender kit e p f lo i⟩ else y :=
      fun j => by rw [hm, withStep_step?]
    by_cases hlast : k < m.plan.length
    · have hpass : passOn sender k p m = m.withStep (k + 1) (.waiting p) := by
        rw [passOn, if_pos hlast, setStep_eq_withStep]
      refine ⟨?_, fun j hjk hjn => ?_, fun hlt => ⟨?_, ?_⟩, fun heq => ?_⟩
      · rw [hstep?, hpass, withStep_step?, hstepm, hk]
        simp
      · rw [hstep?, hpass, withStep_step?, hstepm, Option.map_map]
        simp [hjk, hjn, Function.comp_def]
      · rw [hstep?, hpass, withStep_step?, hstepm]
        simp only [LotRec.step?, Nat.add_sub_cancel, Nat.succ_ne_zero, if_false]
        rw [List.getElem?_eq_getElem (hlength ▸ hlast)]
        simp
      · rw [hown, hpass]
      · exact absurd heq (by omega)
    · have hpass : passOn sender k p m = { m with releaseOwner := some sender } := by
        rw [passOn, if_neg hlast]
      refine ⟨?_, fun j hjk _ => ?_, fun hlt => ?_, fun _ => ?_⟩
      · rw [hstep?, hpass]
        change m.step? k = _
        rw [hstepm, hk]
        simp
      · rw [hstep?, hpass]
        change m.step? j = _
        rw [hstepm]
        simp [hjk]
      · exact absurd hlt (by omega)
      · rw [hown, hpass]

/-! ### Holds (R53, R54) -/

theorem holdCase_appended_iff (r : Replica) (sender : Nat) (sn : BitVec 8) (t : HoldTarget) :
    holdCase r sender sn t = .appended ↔
      (r.heldAs t || (r.hold? sender sn).isSome || isShippedTarget r t || decide (Config.maxHolds ≤ r.holds.length)) = false := by
  unfold holdCase
  cases r.heldAs t <;> cases (r.hold? sender sn).isSome <;> cases isShippedTarget r t <;>
    by_cases h : Config.maxHolds ≤ r.holds.length <;> simp [h]

/-- The hold history test after a change of the Hold List alone. -/
theorem frameEnd_holds {s : State} {r : Reception} {sender : Nat} {auth : Level} {body : FrameBody}
    {holds : List HoldEntry} (h : s.Hearing r sender auth body)
    (heffect : effectOf s.re.replica sender body = { s.re.replica with holds := holds }) :
    ∃ t, exec (.frameEnd r) s = .next t ∧ t.re.replica.kits = s.re.replica.kits ∧
      t.re.replica.ring = s.re.replica.ring ∧
      t.re.replica.lots = s.re.replica.lots.map (fun l => l.tested t.re.replica) ∧
      t.re.replica.holds =
        if takesEffect s.re.replica auth sender body then holds else s.re.replica.holds := by
  obtain ⟨t, ht, hre⟩ := frameEnd_replica h
  refine ⟨t, ht, ?_⟩
  rw [hre]
  cases hte : takesEffect s.re.replica auth sender body
  · rw [applyBody_none hte]
    exact ⟨rfl, rfl, testHistory_lots _, rfl⟩
  · rw [applyBody_effect hte, heffect]
    exact ⟨rfl, rfl, testHistory_lots _, rfl⟩

/-- Settles O19. -/
theorem holdAndLiftApply : Obligations.HoldAndLiftApply := by
  constructor
  · intro s r sender auth sn target level reason h
    obtain ⟨t, ht, hkits, hring, hlots, hholds⟩ := frameEnd_holds h rfl
    refine ⟨t, ht, hkits, hring, hlots, ?_⟩
    rw [hholds]
    have hiff := holdCase_appended_iff s.re.replica sender sn target
    by_cases hc : holdCase s.re.replica sender sn target = .appended
    · rw [if_pos (by simp [takesEffect, hc])]
      exact (if_neg (Bool.eq_false_iff.mp (hiff.mp hc))).symm
    · rw [if_neg (by simpa [takesEffect] using hc)]
      exact (if_pos ((Bool.not_eq_false _).mp fun hn => hc (hiff.mpr hn))).symm
  · intro s r sender auth origin sn h
    obtain ⟨t, ht, hkits, hring, hlots, hholds⟩ := frameEnd_holds h rfl
    refine ⟨t, ht, hkits, hring, hlots, ?_⟩
    rw [hholds]
    cases hh : s.re.replica.hold? origin sn <;> simp [takesEffect, liftable, hh]

/-! ### Lots that join, leave and resume (R48, R55 to R57) -/

/-- The lots of a replica after a state frame that leaves the Hold List. -/
theorem applyBody_lot? {r : Replica} {a : Level} {sender : Nat} {body : FrameBody}
    (hholds : (effectOf r sender body).holds = r.holds) (n : Nat) :
    (applyBody r a sender body).lot? n =
      (if takesEffect r a sender body then (effectOf r sender body).lot? n else r.lot? n).map fun l => l.tested r := by
  cases h : takesEffect r a sender body
  · rw [applyBody_none h]
    exact testHistory_lot? r n
  · rw [applyBody_effect h]
    exact testHistory_lot?_of_holds hholds n

/-- A state frame that leaves the Hold List and the kits, heard at the end of its frame. -/
theorem frameEnd_lots {s : State} {r : Reception} {sender : Nat} {auth : Level} {body : FrameBody}
    (h : s.Hearing r sender auth body) (hholds : (effectOf s.re.replica sender body).holds = s.re.replica.holds)
    (hkits : (effectOf s.re.replica sender body).kits = s.re.replica.kits) :
    ∃ t, exec (.frameEnd r) s = .next t ∧
      (∀ n, t.re.replica.lot? n =
        (if takesEffect s.re.replica auth sender body then (effectOf s.re.replica sender body).lot? n
          else s.re.replica.lot? n).map fun l => l.tested s.re.replica) ∧
      t.re.replica.holds = s.re.replica.holds ∧ t.re.replica.kits = s.re.replica.kits ∧
      t.re.replica.ring =
        if takesEffect s.re.replica auth sender body then (effectOf s.re.replica sender body).ring
        else s.re.replica.ring := by
  obtain ⟨t, ht, hre⟩ := frameEnd_replica h
  refine ⟨t, ht, fun n => by rw [hre, applyBody_lot? hholds], ?_⟩
  rw [hre]
  cases hte : takesEffect s.re.replica auth sender body
  · rw [applyBody_none hte]
    exact ⟨rfl, rfl, rfl⟩
  · rw [applyBody_effect hte]
    exact ⟨hholds, hkits, rfl⟩

theorem newPlan_eq_zipIdx (posted : Nat) (specs : List StepSpec) :
    newPlan posted specs = specs.zipIdx.map fun x => ⟨x.1, if x.2 = 0 then .waiting posted else .pending⟩ := by
  cases specs with
  | nil => rfl
  | cons spec rest =>
    refine List.ext_getElem (by simp [newPlan]) fun i _ _ => ?_
    cases i <;> simp [newPlan]

theorem insertLot_lot? (r : Replica) (l : LotRec) (n : Nat) (h : (r.lot? l.lot).isNone = true) :
    (insertLot l r.lots).find? (fun x => x.lot == n) = if n = l.lot then some l else r.lot? n :=
  insertLot_find? l n r.lots (Option.isNone_iff_eq_none.mp h)

theorem takesEffect_withdraw (r : Replica) (a : Level) (sender lot : Nat) :
    takesEffect r a sender (.withdraw lot) = ((r.lot? lot).map fun l => !l.anyRunning).getD false := by
  rw [takesEffect]
  cases r.lot? lot <;> rfl

/-- Settles O20. -/
theorem lotsJoinLeaveAndResume : Obligations.LotsJoinLeaveAndResume := by
  refine ⟨fun s r sender auth lot quantity h => ?_, fun s r sender auth lot => ⟨fun h => ?_, fun h => ?_⟩,
    fun s r sender auth p h => ?_⟩
  · obtain ⟨t, ht, hlots, hholds, hkits, hring⟩ := frameEnd_lots h rfl rfl
    have hremoved : ∀ n, (effectOf s.re.replica sender (.ship lot quantity)).lot? n = _ := removeLot_lot? s.re.replica lot
    refine ⟨t, ht, ?_, fun n hn => ?_, hholds, hkits, hring.trans ?_⟩
    · rw [hlots, hremoved]
      cases hl : s.re.replica.lot? lot <;> simp [takesEffect, hl]
    · rw [hlots, hremoved, if_neg hn, ite_self]
    · cases hl : s.re.replica.lot? lot <;> simp [takesEffect, hl, effectOf, pushRing, Config.maxShipped]
  · obtain ⟨t, ht, hlots, hholds, hkits, hring⟩ := frameEnd_lots h rfl rfl
    have hremoved : ∀ n, (effectOf s.re.replica sender (.withdraw lot)).lot? n = _ := removeLot_lot? s.re.replica lot
    refine ⟨t, ht, ?_, fun n hn => ?_, hholds, hkits, hring.trans (ite_self _)⟩
    · rw [hlots, hremoved, takesEffect_withdraw]
      cases hl : s.re.replica.lot? lot with
      | none => rfl
      | some l => cases hrun : l.anyRunning <;> simp [hrun]
    · rw [hlots, hremoved, if_neg hn, ite_self]
  · obtain ⟨t, ht, hlots, hholds, hkits, hring⟩ := frameEnd_lots h rfl rfl
    have hresumed : ∀ n, (effectOf s.re.replica sender (.resume lot)).lot? n = _ := fun n =>
      updateLot_lot? s.re.replica lot n (fun l => { l with suspended := false }) fun _ => rfl
    refine ⟨t, ht, ?_, fun n hn => ?_, hholds, hkits, hring.trans (ite_self _)⟩
    · rw [hlots, hresumed]
      cases hl : s.re.replica.lot? lot <;> simp [takesEffect, hl]
    · simp only [hlots, hresumed, if_neg hn, Option.map_id', ite_self]
  · obtain ⟨t, ht, hlots, hholds, hkits, hring⟩ := frameEnd_lots h rfl rfl
    have hposted : postable s.re.replica p = true →
        ∀ n, (effectOf s.re.replica sender (.post p)).lot? n
          = if n = p.lot then some (newLot sender p) else s.re.replica.lot? n := fun hp n =>
      insertLot_lot? s.re.replica (newLot sender p) n (by
        simp only [postable, Bool.and_eq_true] at hp
        exact hp.1.1.1.1.1)
    refine ⟨t, ht, hholds, hkits, hring.trans (ite_self _), fun n hn => ?_, (hlots p.lot).trans ?_⟩
    · rw [hlots]
      cases hp : postable s.re.replica p
      · rw [takesEffect, hp, if_neg Bool.false_ne_true]
      · rw [takesEffect, hp, if_pos rfl, hposted hp, if_neg hn]
    · change Option.map _ (if postable s.re.replica p then _ else _) = if postable s.re.replica p then _ else _
      cases hp : postable s.re.replica p
      · rfl
      · rw [if_pos rfl, if_pos rfl, hposted hp, if_pos rfl, Option.map_some, newLot, newPlan_eq_zipIdx]

/-! ### ORPHAN (R58) -/

/-- A replica that shows no station holding anything has nothing of it in a lot. -/
theorem shows_lot {r : Replica} {gone : Nat} (h : r.shows gone = false) {l : LotRec} (hl : l ∈ r.lots) :
    l.ownedBy gone = false ∧ ∀ x ∈ l.plan, x.state.heldBy gone = false := by
  simp only [Replica.shows, Bool.or_eq_false_iff, List.any_eq_false, Bool.not_eq_true] at h
  obtain ⟨⟨hsteps, -⟩, howned⟩ := h
  exact ⟨howned l hl, fun x hx => hsteps l hl x hx⟩

theorem shows_kit {r : Replica} {gone : Nat} (h : r.shows gone = false) {k : KitRec} (hk : k ∈ r.kits) :
    k.location ≠ .at gone := by
  simp only [Replica.shows, Bool.or_eq_false_iff, List.any_eq_false, beq_iff_eq] at h
  exact h.1.2 k hk

/-- An ORPHAN of a station that holds nothing in a lot leaves it as it is. -/
theorem orphanLot_of_not_held {gone sender : Nat} {l : LotRec} (howned : l.ownedBy gone = false)
    (hsteps : ∀ x ∈ l.plan, x.state.heldBy gone = false) : orphanLot gone sender l = l := by
  have hplan : l.plan.map (orphanStep gone) = l.plan :=
    (List.map_congr_left fun x hx => by rw [orphanStep, hsteps x hx]; rfl).trans (List.map_id _)
  have hrun : (l.plan.any fun x => x.state.runningAt gone) = false :=
    List.any_eq_false.mpr fun x hx => by
      have := hsteps x hx
      simp only [StepState.heldBy, Bool.or_eq_false_iff] at this
      simp [this.2]
  rw [orphanLot, howned, hplan, hrun, Bool.or_false]
  rfl

theorem orphan_of_not_shown {r : Replica} {gone sender : Nat} (h : r.shows gone = false) :
    { r with lots := r.lots.map (orphanLot gone sender), kits := r.kits.map (orphanKit gone) } = r := by
  have hlots : r.lots.map (orphanLot gone sender) = r.lots :=
    (List.map_congr_left fun l hl => by
      obtain ⟨howned, hsteps⟩ := shows_lot h hl
      exact orphanLot_of_not_held howned hsteps).trans (List.map_id _)
  have hkits : r.kits.map (orphanKit gone) = r.kits :=
    (List.map_congr_left fun k hk => by
      rw [orphanKit, if_neg (by simpa using shows_kit h hk)]
      rfl).trans (List.map_id _)
  rw [hlots, hkits]

/-- An ORPHAN is applied as R58 states it, whether or not the station is shown holding something. -/
theorem applyBody_orphan (r : Replica) (a : Level) (sender gone : Nat) :
    applyBody r a sender (.orphan gone) =
      testHistory { r with lots := r.lots.map (orphanLot gone sender), kits := r.kits.map (orphanKit gone) } := by
  cases h : r.shows gone
  · rw [applyBody_none (body := .orphan gone) h, orphan_of_not_shown h]
  · rw [applyBody_effect (body := .orphan gone) h]
    rfl

/-- Settles O21. -/
theorem orphanFreesTheFloor : Obligations.OrphanFreesTheFloor := by
  intro s r sender auth gone h
  obtain ⟨t, ht, hre⟩ := frameEnd_replica h
  rw [applyBody_orphan] at hre
  refine ⟨t, ht, by rw [hre]; rfl, by rw [hre]; rfl, ?_, fun n l hl => ?_⟩
  · rw [hre]
    refine List.map_congr_left fun k _ => ?_
    simp [orphanKit]
  · refine ⟨(orphanLot gone sender l).tested s.re.replica, ?_, fun howned => ?_, fun howned => ?_⟩
    · have hfind : (s.re.replica.lots.map (orphanLot gone sender)).find? (fun x => x.lot == n)
          = (s.re.replica.lot? n).map (orphanLot gone sender) := by
        simp only [Replica.lot?, List.find?_map, Function.comp_def, orphanLot_lot]
      rw [hre, testHistory_lot?, Replica.lot?, hfind, hl]
      rfl
    · rw [orphanLot, howned]
      exact ⟨rfl, rfl, rfl⟩
    · rw [orphanLot, howned]
      exact ⟨rfl, rfl, rfl⟩

/-! ### Kit frames (R59, R60) -/

theorem insertKit_find? (c : KitRec) (n : Nat) (cs : List KitRec) (h : cs.find? (fun x => x.kit == c.kit) = none) :
    (insertKit c cs).find? (fun x => x.kit == n) = if n = c.kit then some c else cs.find? fun x => x.kit == n := by
  induction cs with
  | nil =>
    by_cases e : n = c.kit
    · simp [insertKit, e]
    · simp [insertKit, e, Ne.symm e]
  | cons x xs ih =>
    obtain ⟨hx, hxs⟩ : (x.kit == c.kit) = false ∧ xs.find? (fun x => x.kit == c.kit) = none := by
      simpa using h
    unfold insertKit
    by_cases e : n = c.kit
    · subst e
      split <;> simp_all
    · have e' : (c.kit == n) = false := by simpa using fun k => e k.symm
      split
      · simp [List.find?_cons, e']
      · simp [List.find?_cons, ih hxs, e]

theorem removeKit_find? (k n : Nat) (cs : List KitRec) :
    (cs.filter fun x => x.kit != k).find? (fun x => x.kit == n) = if n = k then none else cs.find? fun x => x.kit == n := by
  rw [List.find?_filter]
  by_cases h : n = k
  · subst h
    simp [List.find?_eq_none]
  · rw [if_neg h]
    congr 1
    funext x
    by_cases hx : x.kit = n <;> simp [hx, h]

/-- A frame that leaves the lots, the Hold List and the ring, heard at the end of its frame. -/
theorem frameEnd_kit {s : State} {r : Reception} {sender : Nat} {auth : Level} {body : FrameBody} {k : Nat}
    {new : Option KitRec} (h : s.Hearing r sender auth body)
    (hlots : (effectOf s.re.replica sender body).lots = s.re.replica.lots)
    (hholds : (effectOf s.re.replica sender body).holds = s.re.replica.holds)
    (hring : (effectOf s.re.replica sender body).ring = s.re.replica.ring)
    (hnew : takesEffect s.re.replica auth sender body = true →
      ∀ n, (effectOf s.re.replica sender body).kit? n = if n = k then new else s.re.replica.kit? n)
    (hold : takesEffect s.re.replica auth sender body = false → s.re.replica.kit? k = new) :
    ∃ t, exec (.frameEnd r) s = .next t ∧ s.re.replica.KitBecomes t.re.replica k new := by
  obtain ⟨t, ht, hre⟩ := frameEnd_replica h
  refine ⟨t, ht, ?_⟩
  rw [hre]
  cases hte : takesEffect s.re.replica auth sender body
  · rw [applyBody_none hte]
    exact ⟨hold hte, fun _ _ => rfl, rfl, rfl, rfl⟩
  · rw [applyBody_effect hte]
    refine ⟨(hnew hte k).trans (if_pos rfl), fun n hn => (hnew hte n).trans (if_neg hn), ?_, hholds, hring⟩
    change (effectOf s.re.replica sender body).lots.map _ = _
    rw [hlots]
    exact List.map_congr_left fun l _ => tested_congr hholds l

/-- A frame that changes the record of a kit under a condition on it. -/
theorem frameEnd_updateKit {s : State} {r : Reception} {sender : Nat} {auth : Level} {body : FrameBody} {k : Nat}
    {p : KitRec → Bool} {f : KitRec → KitRec} (h : s.Hearing r sender auth body) (hf : ∀ c, (f c).kit = c.kit)
    (hp : takesEffect s.re.replica auth sender body = kitIs s.re.replica k p)
    (heffect : effectOf s.re.replica sender body = s.re.replica.updateKit k f) :
    ∃ t, exec (.frameEnd r) s = .next t ∧
      s.re.replica.KitBecomes t.re.replica k ((s.re.replica.kit? k).map fun c => if p c then f c else c) := by
  rw [kitIs] at hp
  refine frameEnd_kit h (by rw [heffect]; rfl) (by rw [heffect]; rfl) (by rw [heffect]; rfl) (fun hte n => ?_)
    fun hte => ?_
  · rw [heffect, updateKit_kit? _ _ _ _ hf]
    by_cases hn : n = k
    · subst hn
      rw [hp] at hte
      rw [if_pos rfl]
      cases hc : s.re.replica.kit? n with
      | none => rfl
      | some c =>
        rw [hc] at hte
        simp only [Option.map_some, if_pos, show p c = true from hte]
    · simp only [if_neg hn, Option.map_id']
  · rw [hp] at hte
    cases hc : s.re.replica.kit? k with
    | none => rfl
    | some c =>
      rw [hc] at hte
      simp [show p c = false from hte]

/-- A KIT RETIRE removes a kit on the shelf. -/
theorem frameEnd_kitRetire {s : State} {r : Reception} {sender : Nat} {auth : Level} {k : Nat}
    (h : s.Hearing r sender auth (.kitRetire k)) :
    ∃ t, exec (.frameEnd r) s = .next t ∧
      s.re.replica.KitBecomes t.re.replica k ((s.re.replica.kit? k).filter fun c => !c.onShelf) := by
  refine frameEnd_kit h rfl rfl rfl (fun hte n => ?_) fun hte => ?_
  · refine (removeKit_find? k n s.re.replica.kits).trans ?_
    by_cases hn : n = k
    · rw [if_pos hn, if_pos hn]
      cases hc : s.re.replica.kit? k with
      | none => rfl
      | some c =>
        have : c.onShelf = true := by simpa [takesEffect, kitIs, hc] using hte
        rw [Option.filter_some, this]
        rfl
    · rw [if_neg hn, if_neg hn]
      rfl
  · cases hc : s.re.replica.kit? k with
    | none => rfl
    | some c =>
      have : c.onShelf = false := by simpa [takesEffect, kitIs, hc] using hte
      rw [Option.filter_some, this]
      rfl

/-- A KIT ADD adds a kit of a free ID, in range and while there is room. -/
theorem frameEnd_kitAdd {s : State} {r : Reception} {sender : Nat} {auth : Level} {k f limit : Nat}
    (h : s.Hearing r sender auth (.kitAdd k f limit)) :
    ∃ t, exec (.frameEnd r) s = .next t ∧
      s.re.replica.KitBecomes t.re.replica k
        (if kitAddable s.re.replica k f limit then some ⟨k, f, .shelf, 0, limit⟩ else s.re.replica.kit? k) := by
  refine frameEnd_kit h rfl rfl rfl (fun hte n => ?_) fun hte => ?_
  · have hadd : kitAddable s.re.replica k f limit = true := hte
    have hfree : s.re.replica.kits.find? (fun c => c.kit == k) = none := by
      simp only [kitAddable, Bool.and_eq_true, Option.isNone_iff_eq_none] at hadd
      exact hadd.1.1.1.2
    rw [if_pos hadd]
    exact insertKit_find? ⟨k, f, .shelf, 0, limit⟩ n _ hfree
  · exact (if_neg (Bool.eq_false_iff.mp hte)).symm

/-- The change of the kits that each kit frame states, on a kit that is present or not. -/
theorem kitFrames_become (s : State) (r : Reception) (sender : Nat) (auth : Level) (k : Nat) :
    (s.Hearing r sender auth (.kitTake k) → ∃ t, exec (.frameEnd r) s = .next t ∧
      s.re.replica.KitBecomes t.re.replica k
        ((s.re.replica.kit? k).map fun c => if c.onShelf && !c.due then { c with location := .at sender } else c)) ∧
    (s.Hearing r sender auth (.kitGive k) → ∃ t, exec (.frameEnd r) s = .next t ∧
      s.re.replica.KitBecomes t.re.replica k
        ((s.re.replica.kit? k).map fun c => if c.location == .at sender then { c with location := .shelf } else c)) ∧
    (s.Hearing r sender auth (.kitFound k) → ∃ t, exec (.frameEnd r) s = .next t ∧
      s.re.replica.KitBecomes t.re.replica k
        ((s.re.replica.kit? k).map fun c => if c.isStranded then { c with location := .shelf } else c)) ∧
    (s.Hearing r sender auth (.kitServiced k) → ∃ t, exec (.frameEnd r) s = .next t ∧
      s.re.replica.KitBecomes t.re.replica k
        ((s.re.replica.kit? k).map fun c => if c.onShelf then { c with count := 0 } else c)) := by
  refine ⟨fun h => ?_, fun h => ?_, fun h => ?_, fun h => ?_⟩
  · exact frameEnd_updateKit (p := fun c => c.onShelf && !c.due) (f := fun c => { c with location := .at sender }) h
      (fun _ => rfl) rfl rfl
  · exact frameEnd_updateKit (p := fun c => c.location == .at sender) (f := fun c => { c with location := .shelf }) h
      (fun _ => rfl) rfl rfl
  · exact frameEnd_updateKit (f := fun c => { c with location := .shelf }) h (fun _ => rfl) rfl rfl
  · exact frameEnd_updateKit (f := fun c => { c with count := 0 }) h (fun _ => rfl) rfl rfl

/-- Settles O22. -/
theorem kitFramesMoveAndRenew : Obligations.KitFramesMoveAndRenew := by
  intro s r sender auth k
  obtain ⟨htake, hgive, hfound, hserviced⟩ := kitFrames_become s r sender auth k
  have hretire := frameEnd_kitRetire (s := s) (r := r) (sender := sender) (auth := auth) (k := k)
  refine ⟨fun c hc => ?_, fun hnone => ⟨fun body hbody h => ?_, fun f limit h => ?_⟩⟩
  · rw [hc] at htake hgive hfound hserviced hretire
    refine ⟨fun h => ?_, fun h => ?_, fun h => ?_, fun h => ?_, fun h => ?_, fun f limit h => ?_⟩
    · simpa [KitRec.onShelf] using htake h
    · simpa using hgive h
    · obtain ⟨t, ht, hbecomes⟩ := hfound h
      refine ⟨t, ht, ?_⟩
      cases hloc : c.location <;> simpa [KitRec.isStranded, hloc] using hbecomes
    · simpa [KitRec.onShelf] using hserviced h
    · obtain ⟨t, ht, hbecomes⟩ := hretire h
      refine ⟨t, ht, ?_⟩
      by_cases hshelf : c.location = .shelf <;> simpa [Option.filter_some, KitRec.onShelf, hshelf] using hbecomes
    · obtain ⟨t, ht, hbecomes⟩ := frameEnd_kitAdd h
      exact ⟨t, ht, by simpa [kitAddable, hc] using hbecomes⟩
  · rw [hnone] at htake hgive hfound hserviced hretire
    rcases hbody with rfl | rfl | rfl | rfl | rfl
    · exact htake h
    · exact hgive h
    · exact hfound h
    · exact hserviced h
    · exact hretire h
  · obtain ⟨t, ht, hbecomes⟩ := frameEnd_kitAdd h
    refine ⟨t, ht, ?_⟩
    have hadd : kitAddable s.re.replica k f limit = true ↔
        1 ≤ k ∧ k ≤ 255 ∧ s.re.replica.kits.length < Config.maxKits ∧ 1 ≤ f ∧ 1 ≤ limit := by
      simp [kitAddable, hnone, and_assoc]
    rw [if_congr hadd rfl rfl, hnone] at hbecomes
    exact hbecomes

end Sys2Proof.Machine
end

section
/-! Entries that leave the Send Queue (O14) and the judgement of a frame's end (O15). -/

namespace Sys2Proof.Machine

/-! ### Grants (R8, R9) -/

/-- The lowest kind code, among equals the longest waiting, is granted next. -/
theorem nextOffer_eq {e : SendEntry} {post : List SendEntry} (hpost : ∀ x ∈ post, e.body.kind ≤ x.body.kind) :
    ∀ pre : List SendEntry, (∀ x ∈ pre, e.body.kind < x.body.kind) → nextOffer (pre ++ e :: post) = some e
  | [], _ => by
    rw [List.nil_append, nextOffer]
    split
    · next f hf => rw [if_neg (Nat.not_lt.mpr (hpost f (nextOffer_mem _ _ hf)))]
    · rfl
  | x :: pre, hpre => by
    have h := nextOffer_eq hpost pre fun y hy => hpre y (List.mem_cons_of_mem _ hy)
    simp only [List.cons_append, nextOffer, h, if_pos (hpre x List.mem_cons_self)]

/-- An entry joins behind the entries of a code no higher (R8). -/
theorem insertEntry_between (e : SendEntry) (b : List SendEntry) (hb : ∀ x ∈ b, e.body.kind < x.body.kind) :
    ∀ a : List SendEntry, (∀ x ∈ a, x.body.kind ≤ e.body.kind) → insertEntry e (a ++ b) = a ++ e :: b
  | [], _ => by
    cases b with
    | nil => rfl
    | cons y ys => rw [List.nil_append, insertEntry, if_pos (hb y List.mem_cons_self), List.nil_append]
  | x :: a, ha => by
    have h := insertEntry_between e b hb a fun y hy => ha y (List.mem_cons_of_mem _ hy)
    rw [List.cons_append, insertEntry, if_neg (Nat.not_lt.mpr (ha x List.mem_cons_self)), h, List.cons_append]

/-- Grants into a queue with room for all of them. -/
theorem grants_length (n : Nat) : ∀ lc : LinkController, lc.queue.length + n ≤ Config.maxSend →
    (grants n lc).queue.length = lc.queue.length + min n lc.waiting.length ∧
      (grants n lc).waiting.length = lc.waiting.length - n := by
  induction n with
  | zero => exact fun lc _ => ⟨by simp [grants], rfl⟩
  | succ n ih =>
    intro lc hroom
    obtain ⟨hq, hw⟩ := grantOne_length lc
    have hone : (if lc.queue.length < Config.maxSend ∧ lc.waiting ≠ [] then 1 else 0) = min 1 lc.waiting.length := by
      cases lc.waiting with
      | nil => simp
      | cons x xs => rw [if_pos ⟨by omega, List.cons_ne_nil _ _⟩, List.length_cons, Nat.min_eq_left (by omega)]
    rw [hone] at hq hw
    obtain ⟨kq, kw⟩ := ih (grantOne lc) (by omega)
    rw [grants]
    constructor <;> omega

theorem countP_add_length_filter_not (p : SendEntry → Bool) (q : List SendEntry) :
    q.countP p + (q.filter fun x => !p x).length = q.length := by
  rw [List.countP_eq_length_filter]
  exact (List.length_eq_length_filter_add p).symm

theorem setTx_grantOne (t : Option TxFrame) (m : Medium) (lc : LinkController) :
    grantOne { lc with tx := t, medium := m } = { grantOne lc with tx := t, medium := m } := by
  unfold grantOne
  dsimp only
  split
  · split <;> rfl
  · rfl

/-- A grant reads neither the medium nor the frame in transmission. -/
theorem setTx_refill (n : Nat) (t : Option TxFrame) (m : Medium) (lc : LinkController) :
    refill n { lc with tx := t, medium := m } = { refill n lc with tx := t, medium := m } := by
  unfold refill
  induction n generalizing lc with
  | zero => rfl
  | succ n ih => rw [grants, grants, setTx_grantOne, ih]

/-- One entry that leaves lets the next offer in. -/
theorem release_one {lc : LinkController} {p : SendEntry → Bool} {e : SendEntry} {pre post : List SendEntry}
    (hlength : lc.queue.length ≤ Config.maxSend) (hone : lc.queue.countP p = 1) (hwaiting : lc.waiting = pre ++ e :: post)
    (hpre : ∀ x ∈ pre, e.body.kind < x.body.kind) (hpost : ∀ x ∈ post, e.body.kind ≤ x.body.kind) :
    lc.release p = { lc with queue := insertEntry e (lc.queue.filter fun x => !p x), waiting := pre ++ post } := by
  have hcount := countP_add_length_filter_not p lc.queue
  have hroom : (lc.queue.filter fun x => !p x).length < Config.maxSend := by omega
  have herase : lc.waiting.erase e = pre ++ post := by
    rw [hwaiting, List.erase_append_right _ fun he => absurd (hpre e he) (Nat.lt_irrefl _), List.erase_cons_head]
  rw [LinkController.release, hone, refill, grants, grants, grantOne, if_pos hroom]
  simp only [hwaiting, nextOffer_eq hpost pre hpre, hwaiting ▸ herase]

/-! ### An own BEACON that has been sent (R15) -/

theorem hearCatchUp_ownBeacon {t : Nat} {c : Beacon} {n : Nat} (s : State) :
    hearCatchUp ⟨n, t, true, .beacon c⟩ s = s := rfl

/-- No block does anything on an own BEACON. -/
theorem hear_ownBeacon {t : Nat} {c : Beacon} {n : Nat} (s : State) : hear ⟨n, t, true, .beacon c⟩ s = s := rfl

theorem sentEntry_beacon {t : TxFrame} {c : Beacon} (hbody : t.body = .beacon c) (b : Blocks) :
    sentEntry t b = setLc { b.lc.release (fun e => e.inTx) with tx := none, medium := .ended 0 } b := by
  have hsent : ∀ d : Blocks, snapSent t.body t.target d = d := fun d => by
    rw [hbody, snapSent]
    split <;> rfl
  simp only [sentEntry, hsent, endTx, setLc, LinkController.release]
  rw [← setTx_refill]

theorem frameEnd_ownBeacon {s : State} {t : TxFrame} {c : Beacon} (htx : s.blocks.lc.tx = some t)
    (hbody : t.body = .beacon c) :
    exec (.frameEnd .own) s = .next (State.finish (s.withLc
      { s.blocks.lc.release (fun e => e.inTx) with tx := none, medium := .ended 0 })) := by
  have hown : ownFrameEnd t s
      = s.withLc { s.blocks.lc.release (fun e => e.inTx) with tx := none, medium := .ended 0 } := by
    simp only [ownFrameEnd, hbody, hear_ownBeacon, ite_self, State.mapBlocks, sentEntry_beacon hbody]
    rfl
  change Host.Outcome.next (frameEnd .own s) = _
  rw [frameEnd, htx]
  simp only [if_pos, hown]

/-- Settles O14. -/
theorem freedEntriesAreGranted : Obligations.FreedEntriesAreGranted := by
  refine ⟨fun lc p hlength => ⟨fun hnone => refill_of_no_offers _ _ hnone,
    fun e pre post hone hwaiting hpre hpost => release_one hlength hone hwaiting hpre hpost, ?_⟩,
    fun e a b ha hb => insertEntry_between e b hb a ha, fun s x c htx hbody => frameEnd_ownBeacon htx hbody⟩
  have hcount := countP_add_length_filter_not p lc.queue
  have hroom : (lc.queue.filter fun x => !p x).length + lc.queue.countP p ≤ Config.maxSend := by
    rw [Nat.add_comm, hcount]
    exact hlength
  obtain ⟨hq, hw⟩ := grants_length (lc.queue.countP p) { lc with queue := lc.queue.filter fun e => !p e } hroom
  simp only [LinkController.release, refill]
  exact ⟨by rw [hq]; dsimp only; omega, hw⟩

/-! ### Runs of equal levels (R1) -/

/-- Levels behind `n` equal levels `l` that hold no seven equal in a row, those behind which they stand among them. -/
def BoundedRuns : Bool → Nat → List Bool → Prop
  | _, n, [] => n ≤ 6
  | l, n, b :: bs => n ≤ 6 ∧ BoundedRuns b (if b = l then n + 1 else 1) bs

theorem BoundedRuns.le {l : Bool} {n : Nat} {bs : List Bool} (h : BoundedRuns l n bs) : n ≤ 6 := by
  cases bs with
  | nil => exact h
  | cons b bs => exact h.1

/-- Behind a stuff bit a run is short. -/
theorem stuffFrom_boundedRuns (bs : List Bool) : ∀ (l : Bool) (n : Nat), n ≤ 6 → BoundedRuns l n (stuffFrom l n bs) := by
  induction bs with
  | nil => exact fun _ _ hn => hn
  | cons b bs ih =>
    intro l n hn
    unfold stuffFrom
    split
    · refine ⟨hn, ?_⟩
      rw [if_neg (by simp)]
      exact ⟨by omega, ih b _ (by split <;> omega)⟩
    · exact ⟨hn, ih b _ (by split <;> omega)⟩

theorem BoundedRuns.drop_append {rest : List Bool} : ∀ (pre : List Bool) {l : Bool} {n : Nat},
    BoundedRuns l n (pre ++ rest) → ∃ l' n', BoundedRuns l' n' rest
  | [], l, n, h => ⟨l, n, h⟩
  | _ :: pre, _, _, h => drop_append pre h.2

/-- `k` further equal levels lengthen the run they stand in. -/
theorem BoundedRuns.replicate {x : Bool} {post : List Bool} : ∀ (k : Nat) {n : Nat},
    BoundedRuns x n (List.replicate k x ++ post) → n + k ≤ 6
  | 0, _, h => h.le
  | k + 1, n, h => by
    have := replicate k (n := n + 1) (by simpa [List.replicate_succ] using h.2)
    omega

theorem BoundedRuns.no_seven {l x : Bool} {n : Nat} {bs : List Bool} (h : BoundedRuns l n bs) (pre post : List Bool) :
    bs ≠ pre ++ List.replicate 7 x ++ post := by
  rintro rfl
  rw [List.append_assoc] at h
  obtain ⟨l', n', h'⟩ := h.drop_append
  obtain ⟨-, h'⟩ := show n' ≤ 6 ∧ BoundedRuns x (if x = l' then n' + 1 else 1) (List.replicate 6 x ++ post) from h'
  have hrun := h'.replicate 6
  split at hrun <;> omega

/-- Levels without seven equal in a row do not make the medium idle (R1): `m` recessive ones are yet to come. -/
theorem BoundedRuns.afterIdle_eq_none : ∀ {bs : List Bool} {l : Bool} {n m : Nat}, BoundedRuns l n bs →
    1 ≤ m → 7 ≤ m + (if l then n else 0) → afterIdle m bs = none
  | [], _, _, m + 1, _, _, _ => rfl
  | b :: bs, l, n, m + 1, ⟨_, h⟩, _, hm => by
    have hle := h.le
    cases b
    · exact afterIdle_eq_none (m := idleRun) h (by decide) (Nat.le_trans (by decide) (Nat.le_add_right _ _))
    · refine afterIdle_eq_none (m := m) h ?_ ?_ <;> cases l <;> simp at hm hle ⊢ <;> omega

theorem wireLevels_boundedRuns (f : RxFrame) : BoundedRuns true 0 (wireLevels f) :=
  ⟨by omega, stuffFrom_boundedRuns _ _ _ (by decide)⟩

/-- A whole frame's levels on a medium that is not idle do not make it idle. -/
theorem afterIdle_wireLevels (f : RxFrame) (m : Nat) : afterIdle (m + 1) (wireLevels f) = none :=
  (stuffFrom_boundedRuns (frameBits f) false 1 (by decide)).afterIdle_eq_none (m := idleRun) (by decide) (by decide)

theorem recessiveRun_replicate (n k : Nat) : recessiveRun n (List.replicate k true) = n + k := by
  induction k generalizing n with
  | zero => rfl
  | succ k ih =>
    rw [List.replicate_succ, recessiveRun, if_pos rfl, ih]
    omega

/-- The recessive levels behind the last dominant one are the run that levels end with. -/
theorem recessiveRun_dominant (bits : List Bool) (n k : Nat) :
    recessiveRun n (bits ++ false :: List.replicate k true) = k := by
  induction bits generalizing n with
  | nil =>
    rw [List.nil_append, recessiveRun, recessiveRun_replicate]
    simp
  | cons b bits ih => rw [List.cons_append, recessiveRun, ih]

/-! ### The end of a frame (R1, R5 to R7) -/

theorem exec_frameEnd (r : Reception) (s : State) : exec (.frameEnd r) s = .next (frameEnd r s) := rfl

/-- The end of a frame that the receiver was receiving. -/
theorem frameEnd_received {s : State} {r : Reception} {f : Option RxFrame} (htx : s.blocks.lc.tx = none)
    (h : received s.blocks.lc.medium r = some f) :
    frameEnd r s = (peerFrameEnd (mediumAfter f r) f s).finish := by
  rw [frameEnd, htx]
  simp only [h]

/-- The end of a frame that the receiver was not receiving. -/
theorem frameEnd_ignored {s : State} {r : Reception} (htx : s.blocks.lc.tx = none)
    (h : received s.blocks.lc.medium r = none) :
    frameEnd r s = s.withLc { s.blocks.lc with medium := s.blocks.lc.medium.ignored r } := by
  rw [frameEnd, htx]
  simp only [h]
  rfl

/-- The recessive bit times that the medium counts after a received frame. -/
theorem mediumAfter_ended (f : Option RxFrame) (r : Reception) :
    ∃ n, mediumAfter f r = .ended n ∧
      (∀ k bits, f = none → r = .levels (bits ++ false :: List.replicate k true) → n = k) ∧
      (r = .cut ∨ f ≠ none → n = 0) := by
  cases f with
  | some f => exact ⟨0, rfl, fun _ _ hf => (nomatch hf), fun _ => rfl⟩
  | none =>
    cases r with
    | levels bits =>
      refine ⟨recessiveRun 0 bits, rfl, fun k tail _ hr => ?_, fun h => ?_⟩
      · cases hr
        exact recessiveRun_dominant tail 0 k
      · exact h.elim (nomatch ·) (absurd rfl)
    | own => exact ⟨0, rfl, fun _ _ _ hr => (nomatch hr), fun _ => rfl⟩
    | cut => exact ⟨0, rfl, fun _ _ _ hr => (nomatch hr), fun _ => rfl⟩
    | whole f => exact ⟨0, rfl, fun _ _ _ hr => (nomatch hr), fun _ => rfl⟩

theorem peerFrameEnd_junk {s : State} {f : Option RxFrame} (m : Medium) (htx : s.blocks.lc.tx = none)
    (hjunk : f = none ∨ ∃ g, f = some g ∧ judgeFrame g = none) :
    peerFrameEnd m f s = s.withLc { s.blocks.lc with medium := m, junk := min 65535 (s.blocks.lc.junk + 1) } := by
  have hlc : ({ s.blocks.lc with tx := none, medium := m, junk := min 65535 (s.blocks.lc.junk + 1) } : LinkController)
      = { s.blocks.lc with medium := m, junk := min 65535 (s.blocks.lc.junk + 1) } := by rw [← htx]
  rcases hjunk with rfl | ⟨g, rfl, hg⟩
  · exact congrArg s.withLc hlc
  · simp only [peerFrameEnd, hg]
    exact congrArg s.withLc hlc

theorem peerFrameEnd_offline {s : State} {f : RxFrame} {body : FrameBody} (m : Medium) (htx : s.blocks.lc.tx = none)
    (hoffline : s.blocks.station = .offline) (hbody : judgeFrame f = some body) :
    peerFrameEnd m (some f) s = s.withLc { s.blocks.lc with medium := m } := by
  have hlc : ({ s.blocks.lc with tx := none, medium := m } : LinkController) = { s.blocks.lc with medium := m } := by
    rw [← htx]
  have hstation : (s.mapBlocks fun _ b => endTx m b).blocks.station = .offline := hoffline
  simp only [peerFrameEnd, hbody, hstation, beq_self_eq_true, if_true]
  exact congrArg s.withLc hlc

/-- What the medium was before a received frame is of no account. -/
theorem peerFrameEnd_withMedium (m n : Medium) (f : Option RxFrame) (s : State) :
    peerFrameEnd m f (s.withLc { s.blocks.lc with medium := n }) = peerFrameEnd m f s := rfl

/-- Settles O15. -/
theorem frameEndsAreJudged : Obligations.FrameEndsAreJudged := by
  refine ⟨fun s r htx h => ?_, fun s r f body htx hoffline hr hbody => ?_, fun s n htx hmedium hn => ⟨?_, fun f => ?_,
    fun f bits k hlevels => ?_⟩, fun s bits f htx hlevels => ?_, fun rest => rfl⟩
  · obtain ⟨f, hr, hjunk⟩ : ∃ f, received s.blocks.lc.medium r = some f ∧
        (f = none ∨ ∃ g, f = some g ∧ judgeFrame g = none) := by
      rcases h with hcut | ⟨g, hg, hnone⟩
      · exact ⟨none, hcut, .inl rfl⟩
      · exact ⟨some g, hg, .inr ⟨g, rfl, hnone⟩⟩
    obtain ⟨n, hafter, hlevels, hzero⟩ := mediumAfter_ended f r
    refine ⟨n, ?_, fun k bits hnone => hlevels k bits ?_, fun hor => hzero (hor.imp_right fun hne hf => hne ?_)⟩
    · rw [exec_frameEnd, frameEnd_received htx hr, hafter, peerFrameEnd_junk _ htx hjunk]
    · exact Option.some.inj (hr.symm.trans hnone)
    · rw [hr, hf]
  · rw [exec_frameEnd, frameEnd_received htx hr, peerFrameEnd_offline _ htx hoffline hbody]
    rfl
  · rw [exec_frameEnd, frameEnd_ignored htx (by rw [hmedium]; rfl), hmedium]
    rfl
  · rw [exec_frameEnd, frameEnd_ignored htx (by rw [hmedium]; rfl), hmedium]
    rfl
  · obtain ⟨m, hm⟩ : ∃ m, idleRun - n = m + 1 := ⟨idleRun - n - 1, by simp only [idleRun]; omega⟩
    have hreadable : readable (.notIdle n) (wireLevels f) = none := by
      rw [readable, hm, afterIdle_wireLevels]
    have hwaited : Medium.ignored (.notIdle n) (.levels (wireLevels f)) = .notIdle k := by
      simp only [Medium.ignored, Medium.waited, hreadable, Option.isSome_none, Bool.false_eq_true, if_false]
      rw [hlevels, recessiveRun_dominant]
    have hnone : received (.notIdle n) (.levels (wireLevels f)) = none := by
      simp only [received, receiveLevels, hreadable, Option.map_none]
    rw [exec_frameEnd, frameEnd_ignored htx (by rw [hmedium]; exact hnone), hmedium, hwaited]
  · rw [exec_frameEnd, exec_frameEnd, frameEnd_received (r := .levels bits) htx hlevels,
      frameEnd_received (r := .whole f) (s := s.withLc { s.blocks.lc with medium := .idle }) htx rfl,
      peerFrameEnd_withMedium]
    rfl

end Sys2Proof.Machine
end

section
/-! What a change of station state leaves of the Catch-up Unit, the Presence Unit, the Handler Record and the Dispatch
Queue (R26, R29, R33, R74). -/

namespace Sys2Proof.Machine

/-- The Catch-up Unit, and the Presence Unit but for its park timer, are left alone. -/
structure Aside (b c : Blocks) : Prop where
  cu : c.cu = b.cu
  pu : { c.pu with parkTimer := none } = { b.pu with parkTimer := none }

theorem Aside.refl (b : Blocks) : Aside b b := ⟨rfl, rfl⟩

theorem Aside.trans {a b c : Blocks} (h : Aside a b) (k : Aside b c) : Aside a c :=
  ⟨k.cu.trans h.cu, k.pu.trans h.pu⟩

theorem Aside.ite {p : Prop} [Decidable p] {a b c : Blocks} (h : Aside a b) (k : Aside a c) :
    Aside a (if p then b else c) := by
  split
  · exact h
  · exact k

theorem Aside.station {b c : Blocks} (h : Aside b c) : c.station = b.station := by
  have k := congrArg PresenceUnit.station h.pu
  exact k

theorem Aside.listenTimer {b c : Blocks} (h : Aside b c) : c.pu.listenTimer = b.pu.listenTimer := by
  have k := congrArg PresenceUnit.listenTimer h.pu
  exact k

theorem Aside.listenWait {b c : Blocks} (h : Aside b c) : c.pu.listenWait = b.pu.listenWait := by
  have k := congrArg PresenceUnit.listenWait h.pu
  exact k

theorem Aside.beaconTimer {b c : Blocks} (h : Aside b c) : c.pu.beaconTimer = b.pu.beaconTimer := by
  have k := congrArg PresenceUnit.beaconTimer h.pu
  exact k

theorem Aside.peers {b c : Blocks} (h : Aside b c) : c.pu.peers = b.pu.peers := by
  have k := congrArg PresenceUnit.peers h.pu
  exact k

theorem Evolves.aside {b c : Blocks} (h : Evolves b c) : Aside b c := ⟨h.cu, congrArg Blocks.pu h.core⟩

theorem Aside.foldOver {α : Type} {f : List α → Blocks → Blocks} {g : α → Blocks → Blocks} (hnil : ∀ b, f [] b = b)
    (hcons : ∀ x xs b, f (x :: xs) b = f xs (g x b)) (hg : ∀ x b, Aside b (g x b)) (xs : List α) :
    ∀ b, Aside b (f xs b) := by
  induction xs with
  | nil => exact fun b => by rw [hnil]; exact .refl b
  | cons x xs ih => exact fun b => by rw [hcons]; exact (hg x b).trans (ih _)

/-! ### Frames that are offered, holds and release records -/

/-- Besides, the Handler Record and the Dispatch Queue are left alone. -/
structure Reoffers (b c : Blocks) : Prop extends Aside b c where
  hr : c.hr = b.hr
  queue : c.du.queue = b.du.queue

theorem Reoffers.refl (b : Blocks) : Reoffers b b := ⟨.refl b, rfl, rfl⟩

theorem Reoffers.trans {a b c : Blocks} (h : Reoffers a b) (k : Reoffers b c) : Reoffers a c :=
  ⟨h.toAside.trans k.toAside, k.hr.trans h.hr, k.queue.trans h.queue⟩

theorem Reoffers.ite {p : Prop} [Decidable p] {a b c : Blocks} (h : Reoffers a b) (k : Reoffers a c) :
    Reoffers a (if p then b else c) := by
  split
  · exact h
  · exact k

theorem Reoffers.of_rest {b c : Blocks} (hcu : c.cu = b.cu) (hpu : c.pu = b.pu) (hhr : c.hr = b.hr)
    (hqueue : c.du.queue = b.du.queue) : Reoffers b c := ⟨⟨hcu, by rw [hpu]⟩, hhr, hqueue⟩

theorem Reoffers.foldOver {α : Type} {f : List α → Blocks → Blocks} {g : α → Blocks → Blocks} (hnil : ∀ b, f [] b = b)
    (hcons : ∀ x xs b, f (x :: xs) b = f xs (g x b)) (hg : ∀ x b, Reoffers b (g x b)) (xs : List α) :
    ∀ b, Reoffers b (f xs b) := by
  induction xs with
  | nil => exact fun b => by rw [hnil]; exact .refl b
  | cons x xs ih => exact fun b => by rw [hcons]; exact (hg x b).trans (ih _)

theorem raise_reoffers (n : Notice) (b : Blocks) : Reoffers b (raise n b) := .of_rest rfl rfl rfl rfl

theorem setLc_reoffers (lc : LinkController) (b : Blocks) : Reoffers b { b with lc := lc } := .of_rest rfl rfl rfl rfl

theorem offer_reoffers (body : FrameBody) (t : Nat) (o : Owner) (host : Bool) (b : Blocks) :
    Reoffers b (offer body t o host b) := .ite (setLc_reoffers _ b) (.refl b)

theorem withdrawAll_reoffers (p : FrameBody → Bool) (b : Blocks) : Reoffers b (withdrawAll p b) := setLc_reoffers _ b

theorem autoHold_reoffers (v : View) (t : HoldTarget) (l : Level) (r : Reason) (b : Blocks) :
    Reoffers b (autoHold v t l r b) := by
  have hpending : Reoffers b (keepPending ⟨t, l, r⟩ b) := by
    unfold keepPending
    split <;> exact .of_rest rfl rfl rfl rfl
  have hserial : Reoffers b { b with cli := { b.cli with serial := nextSerial v b + 1 } } := .of_rest rfl rfl rfl rfl
  exact .ite hpending (.ite (.refl b) (.ite (raise_reoffers _ b) (hserial.trans (offer_reoffers _ _ _ _ _))))

theorem reofferOwed_reoffers (v : View) (b : Blocks) : Reoffers b (reofferOwed v b) := by
  have hgives : ∀ (ks : List Nat) (c : Blocks), Reoffers c (enqueueGives ks c) :=
    .foldOver (fun _ => rfl) (fun _ _ _ => rfl) fun _ c => .ite (.refl c) (offer_reoffers ..)
  have htake : ∀ c, Reoffers c (reofferTake c) := fun c => by
    unfold reofferTake
    split
    · split
      · exact .ite (.refl c) (offer_reoffers ..)
      · exact .refl c
    · exact .refl c
  have htally : ∀ c, Reoffers c (reofferTally c) := fun c => by
    unfold reofferTally
    split
    · exact Reoffers.trans (b := { c with iw := { c.iw with tallyOwed := none } }) (.of_rest rfl rfl rfl rfl)
        (offer_reoffers ..)
    · exact .refl c
  have hretry : ∀ (ps : List PendingHold) (c : Blocks), Reoffers c (retryHolds v ps c) :=
    .foldOver (fun _ => rfl) (fun _ _ _ => rfl) fun _ c => autoHold_reoffers v _ _ _ c
  have hholds : ∀ c, Reoffers c (retryPendingHolds v c) := fun c =>
    Reoffers.trans (b := { c with iw := { c.iw with pendingHolds := [] }, du := { c.du with pendingHolds := [] } })
      (.of_rest rfl rfl rfl rfl) (hretry _ _)
  exact ((hgives _ b).trans (htake _)).trans ((htally _).trans (hholds _))

theorem orphanCheck_reoffers (v : View) (b : Blocks) : Reoffers b (orphanCheck v b) := by
  have heach : ∀ (ps : List PeerRec) (c : Blocks), Reoffers c (orphanEach v ps c) :=
    .foldOver (fun _ => rfl) (fun _ _ _ => rfl) fun _ c => .ite (offer_reoffers _ _ _ _ c) (.refl c)
  exact .ite (heach _ b) (.refl b)

theorem setReleases_reoffers (rs : List ReleaseRec) (b : Blocks) : Reoffers b (setReleases rs b) := .of_rest rfl rfl rfl rfl

theorem updateRelease_reoffers (lot : Nat) (f : ReleaseRec → ReleaseRec) (b : Blocks) :
    Reoffers b (updateRelease lot f b) := .of_rest rfl rfl rfl rfl

theorem checkOwned_reoffers (v : View) (l : LotRec) (b : Blocks) : Reoffers b (checkOwned v l b) := by
  have hensure : Reoffers b (ensureRelease l.lot b) := by
    unfold ensureRelease
    split
    · exact .refl b
    · exact .of_rest rfl rfl rfl rfl
  have hcount : ∀ c, Reoffers c (countHold v l.lot c) := fun c => by
    unfold countHold
    split
    · exact .ite (.refl c) ((updateRelease_reoffers _ _ c).trans (autoHold_reoffers ..))
    · exact .refl c
  have hship : ∀ c, Reoffers c (enqueueShip l c) := fun c => by
    unfold enqueueShip
    split
    · exact .ite (.refl c) ((updateRelease_reoffers _ _ c).trans (offer_reoffers ..))
    · exact .refl c
  have hwaiting : ∀ c, Reoffers c (releaseWaiting l.lot c) := fun c => by
    unfold releaseWaiting
    split
    · exact (updateRelease_reoffers _ _ c).trans (.ite (raise_reoffers _ _) (.refl _))
    · exact .refl c
  exact hensure.trans (.ite ((updateRelease_reoffers _ _ _).trans (hcount _))
    (.ite (updateRelease_reoffers _ _ _) (.ite ((updateRelease_reoffers _ _ _).trans (hship _)) (hwaiting _))))

theorem releaseChecks_reoffers (v : View) (b : Blocks) : Reoffers b (releaseChecks v b) := by
  have hprune : ∀ (rs : List ReleaseRec) (c : Blocks), Reoffers c (pruneReleases v rs c) :=
    .foldOver (fun _ => rfl) (fun _ _ _ => rfl) fun _ c =>
      .ite (.refl c) (.ite ((setReleases_reoffers _ c).trans (withdrawAll_reoffers _ _)) (setReleases_reoffers _ c))
  have hcheck : ∀ (ls : List LotRec) (c : Blocks), Reoffers c (checkLots v ls c) :=
    .foldOver (fun _ => rfl) (fun _ _ _ => rfl) fun l c => .ite (checkOwned_reoffers v l c) (.refl c)
  exact .ite ((hprune _ b).trans (hcheck _ _)) (.refl b)

/-! ### Entries to a station state -/

/-- The blocks where the station state alone has changed, with its beacon timer (R26). -/
def inState (v : View) (new : StationState) (b : Blocks) : Blocks :=
  { b with pu := { b.pu with station := new, beaconTimer := if beacons new then some v.cfg.beaconInterval else none } }

/-- A change of station state that ends no membership offers frames, and no more. -/
theorem enterState_reoffers (v : View) {new : StationState} {b : Blocks} (h : (isMember b.station && !isMember new) = false) :
    Reoffers (inState v new b) (enterState v new b) := by
  have hbeacon : Reoffers (inState v new b)
      (if beacons new then offerBeacon (inState v new b) else inState v new b) := .ite (offer_reoffers ..) (.refl _)
  have hreleases : ∀ c, Reoffers c (if isWorking new then c else { c with du := { c.du with releases := [] } }) := fun c =>
    .ite (.refl c) (.of_rest rfl rfl rfl rfl)
  have howed : ∀ c, Reoffers c (if acceptsFrames new then reofferOwed v c else c) := fun c =>
    .ite (reofferOwed_reoffers v c) (.refl c)
  unfold enterState
  simp only [h, Bool.false_eq_true, if_false]
  exact ((hbeacon.trans (hreleases _)).trans (howed _)).trans (.of_rest rfl rfl rfl rfl)

theorem reconcile_aside (v : View) (a : Bool) (b : Blocks) : Aside b (reconcile v a b) := by
  have hlost : ∀ (e : QueueEntry) (c : ClaimLostCause) (d : Blocks), Aside d (reportLost e c d) := fun e c d =>
    .ite (raise_reoffers _ d).toAside (.ite ⟨rfl, rfl⟩ (raise_reoffers _ d).toAside)
  have hremove : ∀ (es : List QueueEntry) (c : Blocks), Aside c (removeLost v a es c) :=
    .foldOver (fun _ => rfl) (fun _ _ _ => rfl) fun e c => by
      refine .ite (.refl c) ?_
      have hhalt : ∀ d : Blocks, Aside d (if beforeRun e.phase then d else haltStep d) := fun d =>
        .ite (.refl d) ⟨rfl, rfl⟩
      have hdrop : Aside c (withdrawFrame (.cede e.lot e.step) (withdrawAll (isStartOf e.lot e.step) (markDue
          { c with du := { c.du with queue := c.du.queue.filter fun x => !(x.lot == e.lot && x.step == e.step) } }))) :=
        ⟨rfl, rfl⟩
      unfold removeEntry
      simp only
      split
      · exact (hdrop.trans (hhalt _)).trans (hlost e _ _)
      · exact hdrop.trans (hhalt _)
  exact (hremove _ b).trans (upkeepRequest_evolves _).aside

theorem setGives_aside (ks : List Nat) (b : Blocks) : Aside b { b with hr := { b.hr with gives := ks } } := ⟨rfl, rfl⟩

theorem agreeWithReplica_aside (v : View) (b : Blocks) : Aside b (agreeWithReplica v b) := by
  have hchoose : ∀ c : Blocks, Aside c (match c.hr.request with
      | some r =>
        match r.phase, r.candidate with
        | .fitting, some k => if kitAtHere v k then c else chooseKit v r c
        | _, _ => c
      | none => c) := fun c => by
    split
    · split
      · exact .ite (.refl c) (chooseKit_evolves v _ c).aside
      · exact .refl c
    · exact .refl c
  unfold agreeWithReplica
  refine Aside.trans ?_ (hchoose _)
  refine Aside.trans ?_ (setGives_aside _ _)
  split
  · exact .ite (.refl b) ⟨rfl, rfl⟩
  · exact .refl b

theorem bringIntoLine_aside (v : View) (a : Bool) (b : Blocks) : Aside b (bringIntoLine v a b) := by
  have hserial : Aside (reconcile v a b) (if a then
      { reconcile v a b with cli := { (reconcile v a b).cli with serial := serialAfterCatchUp v } }
    else reconcile v a b) := .ite ⟨rfl, rfl⟩ (.refl _)
  exact (((reconcile_aside v a b).trans hserial).trans (agreeWithReplica_aside v _)).trans (releaseChecks_reoffers v _).toAside

/-! ### A failed attempt (R75, R76) -/

/-- Of the Catch-up Unit, what a failed attempt leaves beside the session and the copy. -/
theorem failAttempt_cu (v : View) (c : AttemptCause) (b : Blocks) :
    { (failAttempt v c b).cu with session := none, copy := .empty } = { b.cu.failed v with session := none } := by
  have hfailed : ({ (attemptFailed v c b).cu with session := none, copy := .empty } : CatchUpUnit)
      = { b.cu.failed v with session := none } := congrArg Lane.cu (attemptFailed_lane v c b)
  rw [failAttempt_eq]
  split
  · exact (congrArg Lane.cu (isolate_enters v c _).lane).trans hfailed
  · exact hfailed

theorem attemptFailed_station (v : View) (c : AttemptCause) (b : Blocks) : (attemptFailed v c b).station = b.station := rfl

theorem failAttempt_station (v : View) (c : AttemptCause) (b : Blocks) :
    (failAttempt v c b).station = if v.cfg.attemptLimit ≤ b.cu.attempts + 1 then .isolated else b.station := by
  rw [failAttempt_eq]
  split
  · exact (isolate_enters v c _).station
  · rfl

theorem failAttempt_reported (v : View) (c : AttemptCause) (b : Blocks) :
    (failAttempt v c b).reported (.catchUpFailed c b.cu.reference (b.cu.attempts + 1)) := by
  have hfailed : (attemptFailed v c b).reported (.catchUpFailed c b.cu.reference (b.cu.attempts + 1)) := raise_reported _ _
  rw [failAttempt_eq]
  split
  · exact (isolate_attends v c _).reported _ hfailed
  · exact hfailed

/-! ### The hearing of a peer (R24, R28) -/

theorem heardListening_reoffers (v : View) (b : Blocks) :
    Reoffers (if b.station == .listening then inState v .joining { b with pu := { b.pu with listenWait := true } } else b)
      (heardListening v b) := by
  unfold heardListening
  split
  · next h =>
    have hlistening : b.station = .listening := eq_of_beq h
    have hstation : ({ b with pu := { b.pu with listenWait := true } } : Blocks).station = .listening := hlistening
    exact enterState_reoffers v (by rw [hstation]; rfl)
  · exact .refl b

/-- The Presence Unit leaves the Catch-up Unit on a peer's frame that is no BEACON. -/
theorem hearPeer_cu (v : View) (h : Heard) (b : Blocks) (hbody : ∀ c, h.body ≠ .beacon c) : (hearPeer v h b).cu = b.cu := by
  have hrecord : (recordPeer h.sender h.body b).cu = b.cu := by
    unfold recordPeer raiseIf
    simp only
    split <;> rfl
  have hlistening : ∀ c : Blocks, (heardListening v c).cu = c.cu := fun c => by
    rw [(heardListening_reoffers v c).cu]
    split <;> rfl
  have hconflict : (idConflict b).cu = b.cu := by
    unfold idConflict
    split <;> rfl
  unfold hearPeer
  split
  · exact hconflict
  · split
    · dsimp only
      split
      · next c hc => exact absurd hc (hbody c)
      · exact (hlistening _).trans hrecord
    · rfl

end Sys2Proof.Machine
end

section
/-! The hearing of a good frame: a state frame applied or buffered (O16), the Peer Table (O24), a diverged replica (O25)
and the begin and the end of a catch-up (O26). -/

namespace Sys2Proof.Machine

/-! ### The frame in transmission -/

theorem completeLeave_tx (v : View) (b : Blocks) : (completeLeave v b).lc.tx = b.lc.tx := by
  have hempty := ((emptyDispatchQueue_stepsOnly v b).quiet (endSession_quiet _)).quiet (endRequest_quiet _)
  have hoffline : (enterOffline v b).lc.tx = b.lc.tx :=
    (((emptySendQueue_quiet v _).trans (raise_quiet .left _)).trans (markDue_quiet _)).tx.trans
      (congrArg Lane.tx hempty.lane)
  unfold completeLeave
  split
  · exact (settle_quiet v _).tx.trans hoffline
  · rfl

theorem finish_tx (v : View) (b : Blocks) : (finish v b).lc.tx = b.lc.tx :=
  ((keepParkTimer_quiet v _).tx.trans (completeLeave_tx v _)).trans (settle_quiet v b).tx

theorem hear_tx (h : Heard) (s : State) : (hear h s).blocks.lc.tx = s.blocks.lc.tx := by
  have hrest : ∀ t : State, (hearCatchUp h (hearState h t)).blocks.lc.tx = t.blocks.lc.tx := fun t =>
    ((hearState_attends h t).trans (hearCatchUp_attends h _)).tx
  unfold hear
  split
  · exact hrest s
  · exact (hrest _).trans (hearPeer_tx s.view h s.blocks)

theorem sentEntry_tx (t : TxFrame) (b : Blocks) : (sentEntry t b).lc.tx = none :=
  (refill_rest _ _).2.1.trans (snapSent_quiet ..).tx

/-- No own frame is in transmission once a frame has ended that was read or sent to its end. -/
theorem frameEnd_tx {s : State} {r : Reception} {sender : Nat} {auth : Level} {body : FrameBody}
    (h : s.Hearing r sender auth body) : (frameEnd r s).blocks.lc.tx = none := by
  cases h with
  | own x sent online isState notBuffering =>
    have hown : (ownFrameEnd x s).blocks.lc.tx = none := by
      unfold ownFrameEnd
      simp only
      split
      · exact sentEntry_tx x s.blocks
      · exact (hear_tx _ _).trans (sentEntry_tx x s.blocks)
    rw [frameEnd, sent]
    exact (finish_tx _ _).trans hown
  | peer _ f _ receiving reads good online isState notBuffering =>
    rw [frameEnd_received receiving reads]
    refine (finish_tx _ _).trans ?_
    simp only [peerFrameEnd, good]
    split
    · rfl
    · exact hear_tx _ _

/-! ### The end of a peer's good frame (R7) -/

/-- A good peer frame as it is handed on (R7). -/
def heardAs (f : RxFrame) (body : FrameBody) : Heard := ⟨f.sender.toNat, f.target.toNat, false, body⟩

/-- A state where a frame of another transmitter has just ended (R1). -/
def State.ended (s : State) : State := s.withLc { s.blocks.lc with medium := .ended 0 }

/-- A good peer frame, heard on a medium that was idle. -/
theorem frameEnd_hears {s : State} {f : RxFrame} {body : FrameBody} (h : s.HearsPeer f body) :
    exec (.frameEnd (.whole f)) s = .next (hear (heardAs f body) s.ended).finish := by
  have hreceived : received s.blocks.lc.medium (.whole f) = some (some f) := by rw [received, if_pos h.idleBefore]
  have hlc : ({ s.blocks.lc with tx := none, medium := .ended 0 } : LinkController)
      = { s.blocks.lc with medium := .ended 0 } := by rw [← h.receiving]
  have hstart : (s.mapBlocks fun _ b => endTx (mediumAfter (some f) (.whole f)) b) = s.ended :=
    congrArg s.withLc hlc
  have honline : (s.ended.blocks.station == .offline) = false := beq_eq_false_iff_ne.mpr h.online
  rw [exec_frameEnd, frameEnd_received h.receiving hreceived]
  simp only [peerFrameEnd, hstart, h.good, honline]
  rfl

theorem hear_peer (h : Heard) (s : State) (hown : h.own = false) :
    hear h s = hearCatchUp h (hearState h (s.mapBlocks fun v b => hearPeer v h b)) := by
  rw [hear, hown]
  rfl

/-- A peer's state frame, heard while a snapshot is received, is buffered (R72). -/
theorem hear_buffered {h : Heard} {s : State} (hown : h.own = false) (hstate : h.body.isState = true)
    (hphase : s.blocks.cu.phase = .receiving) :
    hear h s = s.mapBlocks fun v b => bufferFrame v ⟨h.sender, h.own, h.body⟩ (hearPeer v h b) := by
  have hbody : ∀ c, h.body ≠ .beacon c := fun c hc => by
    rw [hc] at hstate
    exact absurd hstate Bool.false_ne_true
  have hreceiving : (s.mapBlocks fun v b => hearPeer v h b).blocks.cu.phase = .receiving := by
    rw [State.mapBlocks_blocks, hearPeer_cu _ _ _ hbody, hphase]
  rw [hear_peer h s hown, hearCatchUp_state _ _ hstate, hearState, if_pos hstate, hreceiving]
  rfl

theorem heardListening_attends (v : View) (b : Blocks) : Attends b (heardListening v b) := by
  have hwait : Attends b { b with pu := { b.pu with listenWait := true } } := ⟨rfl, rfl, rfl, fun _ => id, id⟩
  exact .ite (hwait.trans (enterState_attends ..)) (.refl b)

theorem beaconHeard_attends (v : View) (sender : Nat) (m : Bool) (c : Beacon) (b : Blocks) :
    Attends b (beaconHeard v sender m c b) := by
  have hjudge : ∀ d, Attends d (if isMember d.station then
      match judgeBeacon v sender c with
      | some cause => diverge v cause d
      | none => d
    else d) := fun d => by
    split
    · split
      · exact diverge_attends ..
      · exact .refl d
    · exact .refl d
  have horphan : Attends b (if m && !isMember c.state then orphanCheck v b else b) := .ite (orphanCheck_attends v b) (.refl b)
  exact horphan.trans (hjudge _)

/-- What the Presence Unit does on a peer's frame beside the record of its sender. -/
theorem hearPeer_recorded {v : View} {h : Heard} {b : Blocks} (hid : h.sender ≠ v.id) (hlow : 1 ≤ h.sender)
    (hhigh : h.sender ≤ 62) : Attends (recordPeer h.sender h.body b) (hearPeer v h b) := by
  have hrange : (decide (1 ≤ h.sender) && decide (h.sender ≤ 62)) = true := by simp [hlow, hhigh]
  unfold hearPeer
  rw [if_neg hid, if_pos hrange]
  simp only
  split
  · exact (heardListening_attends v _).trans (beaconHeard_attends ..)
  · exact heardListening_attends v _

/-- A frame of a sender that has no record is no peer's. -/
theorem hearPeer_unlisted {v : View} {h : Heard} {b : Blocks} (hid : h.sender ≠ v.id)
    (hrange : h.sender = 0 ∨ h.sender = 63) : hearPeer v h b = b := by
  unfold hearPeer
  rw [if_neg hid, if_neg]
  simp only [Bool.and_eq_true, decide_eq_true_eq]
  omega

theorem hearPeer_own {v : View} {h : Heard} {b : Blocks} (hid : h.sender = v.id) : hearPeer v h b = idConflict b := by
  rw [hearPeer, if_pos hid]

theorem recordPeer_leaving (sender : Nat) (body : FrameBody) (b : Blocks) :
    (recordPeer sender body b).du.leaving = b.du.leaving := by
  simp only [recordPeer, raiseIf]
  split <;> rfl

theorem hearPeer_leaving (v : View) (h : Heard) (b : Blocks) (hl : b.du.leaving = false) :
    (hearPeer v h b).du.leaving = false := by
  by_cases hid : h.sender = v.id
  · rw [hearPeer_own hid]
    unfold idConflict
    split <;> exact hl
  · by_cases hrange : 1 ≤ h.sender ∧ h.sender ≤ 62
    · exact (hearPeer_recorded hid hrange.1 hrange.2).leaving ((recordPeer_leaving ..).trans hl)
    · have hsame : hearPeer v h b = b := by
        rw [hearPeer, if_neg hid, if_neg (by simpa using hrange)]
      rw [hsame]
      exact hl

/-- What the other blocks do on a peer's frame. -/
theorem hear_attends (f : RxFrame) (body : FrameBody) (s : State) :
    Attends (hearPeer s.view (heardAs f body) s.blocks) (hear (heardAs f body) s).blocks := by
  rw [hear_peer _ _ rfl]
  exact (hearState_attends (heardAs f body) (s.mapBlocks fun v b => hearPeer v (heardAs f body) b)).trans
    (hearCatchUp_attends (heardAs f body) _)

theorem hear_leaving (f : RxFrame) (body : FrameBody) {s : State} (hl : s.blocks.du.leaving = false) :
    (hear (heardAs f body) s).blocks.du.leaving = false :=
  (hear_attends f body s).leaving (hearPeer_leaving _ _ _ hl)

/-- What is evaluated at the end of the hearing of a peer's frame. -/
theorem hears_evolves {s : State} {f : RxFrame} {body : FrameBody} (h : s.HearsPeer f body)
    (hl : s.blocks.du.leaving = false) :
    ∃ t, exec (.frameEnd (.whole f)) s = .next t ∧ t.re = (hear (heardAs f body) s.ended).re ∧
      Evolves (hear (heardAs f body) s.ended).blocks t.blocks :=
  ⟨_, frameEnd_hears h, rfl, State.finish_evolves _ (hear_leaving f body (s := s.ended) hl)⟩

/-- Settles O16. -/
theorem stateFramesAreAppliedOrBuffered : Obligations.StateFramesAreAppliedOrBuffered := by
  refine ⟨fun s r sender auth body h => ?_, fun s f body h hstate hphase hleaving => ?_⟩
  · obtain ⟨t, ht, hre⟩ := frameEnd_re h
    obtain rfl : frameEnd r s = t := Host.Outcome.next.inj ht
    have hcarries := frameEnd_carries r s
    refine ⟨_, rfl, by rw [hre]; rfl, by rw [hre]; rfl, frameEnd_tx h, hcarries.stationId, hcarries.config, fun hnone => ?_⟩
    rw [hre]
    exact applyBody_none hnone
  · obtain ⟨t, ht, hre, hevolves⟩ := hears_evolves h hleaving
    rw [hear_buffered (h := heardAs f body) (s := s.ended) rfl hstate hphase] at hre hevolves
    have hbody : ∀ c, body ≠ .beacon c := fun c hc => by
      rw [hc] at hstate
      exact absurd hstate Bool.false_ne_true
    have hcu : (hearPeer s.ended.view (heardAs f body) s.ended.blocks).cu = s.blocks.cu := hearPeer_cu _ _ _ hbody
    have hbuffer := hevolves.cu
    rw [State.mapBlocks_blocks, bufferFrame, hcu] at hbuffer
    refine ⟨t, ht, hre, fun hroom => ?_, fun hfull => ?_⟩
    · have hlt : s.blocks.cu.buffer.length < Config.maxBuffer := hroom
      rw [if_pos hlt] at hbuffer
      exact hbuffer
    · have hnot : ¬ s.blocks.cu.buffer.length < Config.maxBuffer := Nat.not_lt.mpr hfull
      rw [if_neg hnot] at hbuffer
      have hfailed := failAttempt_cu s.ended.view .overflow (hearPeer s.ended.view (heardAs f body) s.ended.blocks)
      have hreported := failAttempt_reported s.ended.view .overflow (hearPeer s.ended.view (heardAs f body) s.ended.blocks)
      rw [hcu] at hfailed hreported
      rw [State.mapBlocks_blocks, bufferFrame, hcu, if_neg hnot] at hevolves
      exact ⟨(congrArg CatchUpUnit.buffer hbuffer).trans (congrArg CatchUpUnit.buffer hfailed),
        (congrArg CatchUpUnit.attempts hbuffer).trans (congrArg CatchUpUnit.attempts hfailed),
        hevolves.reported hreported⟩

/-! ### The Peer Table (R24) -/

theorem peer_setPeer (r : PeerRec) (p : PresenceUnit) (n : Nat) :
    PresenceUnit.peer { p with peers := setPeer r p.peers } n = if r.id = n then r else p.peer n := by
  simp only [PresenceUnit.peer, find_setPeer]
  split <;> rfl

theorem peer_congr {b c : PresenceUnit} (h : c.peers = b.peers) (n : Nat) : c.peer n = b.peer n := by
  simp only [PresenceUnit.peer, h]

theorem recordPeer_peer (sender : Nat) (body : FrameBody) (b : Blocks) (n : Nat) :
    (recordPeer sender body b).pu.peer n =
      if sender = n then ⟨sender, .present, some 0, beaconAfter body (b.pu.peer sender).beacon⟩ else b.pu.peer n := by
  simp only [recordPeer, raiseIf]
  split <;> exact peer_setPeer ⟨sender, .present, some 0, beaconAfter body (b.pu.peer sender).beacon⟩ b.pu n

theorem recordPeer_reported {sender : Nat} {body : FrameBody} {b : Blocks} (h : (b.pu.peer sender).state = .absent) :
    (recordPeer sender body b).reported (.peerPresent sender) := by
  have habsent : ((b.pu.peer sender).state == .absent) = true := by rw [h]; rfl
  simp only [recordPeer, raiseIf, habsent, if_true]
  exact raise_reported _ _

/-- A BEACON with the own ID, once ID CONFLICT has been raised, is heard by no block. -/
theorem hear_ownIdBeacon {s : State} {f : RxFrame} {c : Beacon} (hid : f.sender.toNat = s.stationId)
    (hraised : s.blocks.pu.conflictRaised = true) (href : s.blocks.cu.reference ≠ some s.stationId) :
    hear (heardAs f (.beacon c)) s = s := by
  have hpeer : hearPeer s.view (heardAs f (.beacon c)) s.blocks = s.blocks := by
    rw [hearPeer_own hid, idConflict, if_pos hraised]
  have hsame : (s.mapBlocks fun v b => hearPeer v (heardAs f (.beacon c)) b) = s := by rw [State.mapBlocks, hpeer]
  have hreference : (s.blocks.cu.reference == some f.sender.toNat) = false :=
    beq_eq_false_iff_ne.mpr (hid ▸ href)
  rw [hear_peer _ _ rfl, hsame]
  change (if s.blocks.cu.reference == some f.sender.toNat then _ else s) = s
  rw [hreference]
  rfl

/-- Settles O24. -/
theorem peerFramesAreRecorded : Obligations.PeerFramesAreRecorded := by
  intro s f body h hleaving
  obtain ⟨t, ht, _, hevolves⟩ := hears_evolves h hleaving
  have hattends := (hear_attends f body s.ended).trans hevolves.attends
  refine ⟨fun hid hlow hhigh => ⟨t, ht, ?_, fun n hn => ?_, fun habsent => ?_⟩, fun hid hraised => ⟨t, ht, ?_⟩,
    fun hid hraised => ⟨?_, fun c hc href => ?_⟩, fun hid hrange => ⟨t, ht, ?_⟩⟩
  · have hrecorded := (hearPeer_recorded (b := s.ended.blocks) (h := heardAs f body) (v := s.ended.view)
      hid hlow hhigh).trans hattends
    rw [peer_congr hrecorded.peers]
    refine (recordPeer_peer ..).trans ((if_pos rfl).trans ?_)
    cases body <;> rfl
  · have hrecorded := (hearPeer_recorded (b := s.ended.blocks) (h := heardAs f body) (v := s.ended.view)
      hid hlow hhigh).trans hattends
    rw [peer_congr hrecorded.peers]
    exact (recordPeer_peer ..).trans (if_neg fun heq => hn heq.symm)
  · have hrecorded := (hearPeer_recorded (b := s.ended.blocks) (h := heardAs f body) (v := s.ended.view)
      hid hlow hhigh).trans hattends
    exact hrecorded.reported _ (recordPeer_reported habsent)
  · have hconflict : hearPeer s.ended.view (heardAs f body) s.ended.blocks
        = raise .idConflict { s.ended.blocks with pu := { s.ended.blocks.pu with conflictRaised := true } } := by
      rw [hearPeer_own (v := s.ended.view) (h := heardAs f body) hid, idConflict]
      exact if_neg (by rw [show s.ended.blocks.pu.conflictRaised = false from hraised]; exact Bool.false_ne_true)
    rw [hconflict] at hattends
    exact ⟨hattends.peers, hattends.conflict, hattends.reported _ (raise_reported _ _)⟩
  · rw [hearPeer_own (v := s.view) (h := ⟨f.sender.toNat, f.target.toNat, false, body⟩) hid, idConflict, if_pos hraised]
  · subst hc
    rw [frameEnd_hears h, hear_ownIdBeacon (s := s.ended) hid hraised href]
    rfl
  · rw [hearPeer_unlisted (v := s.ended.view) (h := heardAs f body) hid hrange] at hattends
    exact ⟨hattends.peers, hattends.conflict⟩

/-! ### A diverged replica (R28, R29) -/

theorem ahead_self (a : Word32) : ahead a a = false := by simp [ahead]

theorem beginAttempt_station {v : View} {b : Blocks} (h : b.cu.attempts + 1 < v.cfg.attemptLimit) :
    (beginAttempt v b).station = b.station := by
  unfold beginAttempt
  simp only
  split
  · exact (enqueueReq_quiet _ _).station
  · refine (failAttempt_station ..).trans ?_
    exact if_neg (Nat.not_le.mpr h)

theorem startCatchUp_station {v : View} {b : Blocks} (h : 2 ≤ v.cfg.attemptLimit) :
    (startCatchUp v b).station = b.station := beginAttempt_station (b := { b with cu := { b.cu with attempts := 0 } }) h

theorem diverge_station {v : View} {c : DivergedCause} {b : Blocks} (h : 2 ≤ v.cfg.attemptLimit) :
    (diverge v c b).station = .joining :=
  (startCatchUp_station h).trans ((abandonLeave_quiet _ _).station.trans (enterState_enters v .joining b).station)

theorem diverge_leaving (v : View) (c : DivergedCause) (b : Blocks) : (diverge v c b).du.leaving = false :=
  (startCatchUp_attends v _).leaving (abandonLeave_leaving _ _)

theorem diverge_reported (v : View) (c : DivergedCause) (b : Blocks) : (diverge v c b).reported (.diverged c) :=
  ((abandonLeave_attends .badState _).trans (startCatchUp_attends v _)).reported _ (raise_reported _ _)

theorem recordPeer_station (sender : Nat) (body : FrameBody) (b : Blocks) : (recordPeer sender body b).station = b.station := by
  simp only [recordPeer, raiseIf]
  split <;> rfl

theorem heardListening_member {v : View} {b : Blocks} (h : isMember b.station = true) : heardListening v b = b := by
  have hnot : (b.station == .listening) = false := by
    revert h
    cases b.station <;> decide
  rw [heardListening, hnot]
  rfl

/-- A member's BEACON that the judgement finds fault with. -/
theorem hearPeer_diverges {v : View} {h : Heard} {b : Blocks} {c : Beacon} {cause : DivergedCause}
    (hbody : h.body = .beacon c) (hid : h.sender ≠ v.id) (hlow : 1 ≤ h.sender) (hhigh : h.sender ≤ 62)
    (hmember : isMember b.station = true) (hpeer : isMember c.state = true)
    (hjudge : judgeBeacon v h.sender c = some cause) :
    hearPeer v h b = diverge v cause (recordPeer h.sender h.body b) := by
  have hrange : (decide (1 ≤ h.sender) && decide (h.sender ≤ 62)) = true := by simp [hlow, hhigh]
  have hstill : isMember (recordPeer h.sender h.body b).station = true := by rw [recordPeer_station, hmember]
  rw [hearPeer, if_neg hid, if_pos hrange]
  simp only [heardListening_member hstill]
  rw [hbody] at hstill ⊢
  simp only [beaconHeard, hpeer, hstill, hjudge, Bool.not_true, Bool.and_false, Bool.false_eq_true, if_false, if_true]

/-- A member's BEACON does nothing to the other blocks. -/
theorem hear_memberBeacon {s : State} {f : RxFrame} {c : Beacon} (hpeer : isMember c.state = true) :
    hear (heardAs f (.beacon c)) s = s.mapBlocks fun v b => hearPeer v (heardAs f (.beacon c)) b := by
  have hreference : ∀ (v : View) (b : Blocks), referenceBeacon v c b = b := fun v b => by
    rw [referenceBeacon, hpeer, Bool.not_true, Bool.and_false]
    rfl
  rw [hear_peer _ _ rfl]
  change (if _ then State.mapBlocks _ _ else _) = _
  split
  · simp only [State.mapBlocks, hreference]
    rfl
  · rfl

theorem frameEnd_diverges {s : State} {f : RxFrame} {c : Beacon} {cause : DivergedCause} (h : s.HearsPeer f (.beacon c))
    (hmember : isMember s.blocks.station = true) (hid : f.sender.toNat ≠ s.stationId) (hlow : 1 ≤ f.sender.toNat)
    (hhigh : f.sender.toNat ≤ 62) (hpeer : isMember c.state = true) (hlimit : 2 ≤ s.config.attemptLimit)
    (hjudge : judgeBeacon s.view f.sender.toNat c = some cause) :
    ∃ t, exec (.frameEnd (.whole f)) s = .next t ∧
      t.blocks.station = .joining ∧ t.blocks.du.leaving = false ∧ t.blocks.reported (.diverged cause) := by
  have hdiverges : (hear (heardAs f (.beacon c)) s.ended).blocks
      = diverge s.view cause (recordPeer f.sender.toNat (.beacon c) s.ended.blocks) := by
    rw [hear_memberBeacon hpeer]
    exact hearPeer_diverges (h := heardAs f (.beacon c)) (b := s.ended.blocks) rfl hid hlow hhigh hmember hpeer hjudge
  have hleaving : (hear (heardAs f (.beacon c)) s.ended).blocks.du.leaving = false := by
    rw [hdiverges]
    exact diverge_leaving ..
  have hevolves := State.finish_evolves _ hleaving
  refine ⟨_, frameEnd_hears h, hevolves.station.trans ?_, hevolves.leaving.trans hleaving, hevolves.reported ?_⟩
  · rw [hdiverges]
    exact diverge_station hlimit
  · rw [hdiverges]
    exact diverge_reported ..

/-- Settles O25. -/
theorem divergenceEndsMembership : Obligations.DivergenceEndsMembership := by
  intro s f c h hmember hid hlow hhigh hpeer hlimit
  refine ⟨fun hahead => ?_, fun hcount hdigest hsender => ?_⟩
  · refine frameEnd_diverges h hmember hid hlow hhigh hpeer hlimit ?_
    rw [judgeBeacon, if_pos hpeer]
    exact if_pos hahead
  · refine frameEnd_diverges h hmember hid hlow hhigh hpeer hlimit ?_
    have hnot : ahead c.count s.view.count = false := by
      rw [hcount]
      exact ahead_self _
    rw [judgeBeacon, if_pos hpeer, hnot, if_neg Bool.false_ne_true, if_pos]
    simpa using ⟨⟨hcount, hdigest⟩, hsender⟩

/-! ### The begin and the end of a catch-up (R66, R71, R73, R74) -/

theorem hearPeer_member {v : View} {h : Heard} {b : Blocks} (hbody : ∀ c, h.body ≠ .beacon c)
    (hmember : isMember b.station = true) : (hearPeer v h b).station = b.station := by
  have hconflict : (idConflict b).station = b.station := by
    unfold idConflict
    split <;> rfl
  have hstill : isMember (recordPeer h.sender h.body b).station = true := by rw [recordPeer_station, hmember]
  unfold hearPeer
  split
  · exact hconflict
  · split
    · dsimp only
      split
      · next c hc => exact absurd hc (hbody c)
      · rw [heardListening_member hstill, recordPeer_station]
    · rfl

/-- A frame of the reference to this station that is no state frame and no BEACON. -/
theorem hear_reference {s : State} {f : RxFrame} {body : FrameBody} (hstate : body.isState = false)
    (hbody : ∀ c, body ≠ .beacon c) (hreq : body ≠ .catchReq) (htarget : f.target.toNat = s.stationId)
    (href : s.blocks.cu.reference = some f.sender.toNat) :
    hear (heardAs f body) s
      = referenceHeard f.sender.toNat body (s.mapBlocks fun v b => hearPeer v (heardAs f body) b) := by
  have hcu : (hearPeer s.view (heardAs f body) s.blocks).cu = s.blocks.cu := hearPeer_cu _ _ _ hbody
  have hcond : (decide (f.target.toNat = s.stationId)
      && (hearPeer s.view (heardAs f body) s.blocks).cu.reference == some f.sender.toNat) = true := by
    rw [hcu, href, htarget]
    simp
  have hnot : ∀ t, hearState (heardAs f body) t = t := fun t => if_neg (by
    rw [show (heardAs f body).body.isState = false from hstate]
    exact Bool.false_ne_true)
  rw [hear_peer _ _ rfl, hnot]
  unfold hearCatchUp
  split
  · next hb => exact absurd hb hreq
  · next c hb => exact absurd hb (hbody c)
  · exact if_pos hcond

theorem beginHeard_begins {v : View} {b : Blocks} (c d : Word32) (l h k : Nat) (hphase : b.cu.phase = .requesting)
    (htimer : b.cu.answerTimer.isSome = true) : beginHeard v c d l h k b = beginReceiving c d l h k b := by
  have hawaits : awaitsAnswer b.cu = true := by
    rw [awaitsAnswer, hphase, htimer]
    rfl
  rw [beginHeard, hawaits]
  rfl

theorem judgeEnd_installs {u : CatchUpUnit} {a : Assembly} {c d : Word32} {n : Nat} (hcopy : u.copy = .receiving a)
    (hn : n = u.expected) (hcount : n = 2 * a.lots + a.holds + a.kits + 1) (hc : c = a.count) (hd : d = a.digest)
    (hdigest : a.rep.digest = a.digest) : judgeEnd u c d n = .install a := by
  have hmatches : endMatches a u.expected c d n = true := by simp [endMatches, ← hn, ← hcount, hc, hd]
  simp only [judgeEnd, hcopy, receivingCopy, hmatches, hdigest, Bool.not_true, Bool.false_eq_true, if_false, if_true]

/-- The Catch-up Unit once a catch-up has completed (R74). -/
theorem completeCatchUp_cu (v : View) (r : Nat) (b : Blocks) : (completeCatchUp v r b).cu = b.cu.completed := by
  have henter := enterState_reoffers v (new := .active) (b := { b with cu := b.cu.completed }) (by simp [isMember])
  exact (bringIntoLine_aside v true _).cu.trans ((orphanCheck_reoffers v _).cu.trans henter.cu)

theorem completeCatchUp_station (v : View) (r : Nat) (b : Blocks) : (completeCatchUp v r b).station = .active :=
  (bringIntoLine_aside v true _).station.trans
    ((orphanCheck_reoffers v _).toAside.station.trans (enterState_enters v .active _).station)

theorem completeCatchUp_reported (v : View) (r : Nat) (b : Blocks) :
    (completeCatchUp v r b).reported (.joined v.count r) :=
  ((orphanCheck_attends v _).trans (bringIntoLine_attends v true _)).reported _ (raise_reported _ _)

theorem installSnapshot_re (a : Assembly) (s : State) : (installSnapshot a s).re = ⟨a.rep, a.count, a.digest⟩ := rfl

/-- A snapshot installed with nothing buffered completes the catch-up. -/
theorem endHeard_installs {s : State} {r : Nat} {a : Assembly} {c d : Word32} {n : Nat}
    (hphase : s.blocks.cu.phase = .receiving) (hjudge : judgeEnd s.blocks.cu c d n = .install a)
    (hbuffer : s.blocks.cu.buffer = []) :
    endHeard r c d n s = (installSnapshot a s).mapBlocks fun v b => completeCatchUp v r b := by
  have hreceiving : (s.blocks.cu.phase == .receiving) = true := by rw [hphase]; rfl
  rw [endHeard, if_pos hreceiving, hjudge]
  simp only [installAndComplete, hbuffer, applyBuffer]

/-- Settles O26. -/
theorem catchUpBeginsAndInstalls : Obligations.CatchUpBeginsAndInstalls := by
  refine ⟨fun s f hleaving htarget hid => ⟨fun h hmember hsession => ?_, fun c d l hn k h href hphase htimer => ?_⟩,
    fun s f c d n a h hleaving htarget href hphase hcopy hbuffer hn hcount hc hd hdigest => ?_⟩
  · obtain ⟨t, ht, hre, hevolves⟩ := hears_evolves h hleaving
    have hcu : (hearPeer s.ended.view (heardAs f .catchReq) s.ended.blocks).cu = s.blocks.cu :=
      hearPeer_cu _ _ _ fun _ => nofun
    have hstation : (hearPeer s.ended.view (heardAs f .catchReq) s.ended.blocks).station = s.blocks.station :=
      hearPeer_member (b := s.ended.blocks) (fun _ => nofun) hmember
    have hserve : serveReq f.sender.toNat (hearPeer s.ended.view (heardAs f .catchReq) s.ended.blocks)
        = openSession f.sender.toNat (hearPeer s.ended.view (heardAs f .catchReq) s.ended.blocks) := by
      rw [serveReq, hstation, hmember, hcu, hsession]
      rfl
    have hhear : hear (heardAs f .catchReq) s.ended = { s.ended with
        blocks := openSession f.sender.toNat (hearPeer s.ended.view (heardAs f .catchReq) s.ended.blocks) } := by
      rw [hear_peer _ _ rfl, ← hserve]
      exact if_pos htarget
    rw [hhear] at hre hevolves
    refine ⟨t, ht, hre, hevolves.cu.trans ((offer_reoffers ..).cu.trans ?_)⟩
    simp only [setSession, hcu]
  · obtain ⟨t, ht, hre, hevolves⟩ := hears_evolves h hleaving
    have hcu : (hearPeer s.ended.view (heardAs f (.snapBegin c d l hn k)) s.ended.blocks).cu = s.blocks.cu :=
      hearPeer_cu _ _ _ fun _ => nofun
    have hbegin := beginHeard_begins (v := s.ended.view)
      (b := hearPeer s.ended.view (heardAs f (.snapBegin c d l hn k)) s.ended.blocks) c d l hn k
      (by rw [hcu, hphase]) (by rw [hcu, htimer])
    have hhear : hear (heardAs f (.snapBegin c d l hn k)) s.ended = { s.ended with
        blocks := beginReceiving c d l hn k
          (hearPeer s.ended.view (heardAs f (.snapBegin c d l hn k)) s.ended.blocks) } := by
      rw [hear_reference (s := s.ended) (body := .snapBegin c d l hn k) rfl (fun _ => nofun) nofun htarget href, ← hbegin]
      rfl
    rw [hhear] at hre hevolves
    refine ⟨t, ht, hre, hevolves.cu.trans ?_⟩
    simp only [beginReceiving, hcu]
    rfl
  · obtain ⟨t, ht, hre, hevolves⟩ := hears_evolves h hleaving
    have hcu : (hearPeer s.ended.view (heardAs f (.snapEnd c d n)) s.ended.blocks).cu = s.blocks.cu :=
      hearPeer_cu _ _ _ fun _ => nofun
    have hend := endHeard_installs (s := s.ended.mapBlocks fun v b => hearPeer v (heardAs f (.snapEnd c d n)) b)
      (r := f.sender.toNat) (a := a) (c := c) (d := d) (n := n)
      (by rw [State.mapBlocks_blocks, hcu, hphase])
      (by rw [State.mapBlocks_blocks, hcu]; exact judgeEnd_installs hcopy hn hcount hc hd hdigest)
      (by rw [State.mapBlocks_blocks, hcu, hbuffer])
    rw [hear_reference (s := s.ended) (body := .snapEnd c d n) rfl (fun _ => nofun) nofun htarget href] at hre hevolves
    change Evolves (endHeard f.sender.toNat c d n _).blocks _ at hevolves
    change _ = (endHeard f.sender.toNat c d n _).re at hre
    rw [hend, State.mapBlocks_re] at hre
    rw [hend, State.mapBlocks_blocks] at hevolves
    have hdone := hevolves.cu.trans (completeCatchUp_cu ..)
    refine ⟨t, ht, hre.trans (by rw [hc, hd, installSnapshot_re]), hevolves.station.trans (completeCatchUp_station ..),
      ?_, ?_, ?_, ?_, ?_,
      hevolves.reported ?_⟩
    · rw [hdone]; rfl
    · rw [hdone]; rfl
    · rw [hdone]; rfl
    · rw [hdone]; rfl
    · rw [hdone]; rfl
    · rw [hc]
      exact completeCatchUp_reported (installSnapshot a _).view f.sender.toNat (installSnapshot a _).blocks

end Sys2Proof.Machine
end

section
/-! The timers: the listen period (O27), the Presence Unit's (O28), the Catch-up Unit's (O29), the deference timers (O30)
and a timer that does not run (O32). -/

namespace Sys2Proof.Machine

theorem exec_onBlocks {c : Instr} {f : View → Blocks → Blocks} {s : State}
    (h : exec c s = .next (State.finish (s.mapBlocks f))) (hl : (f s.view s.blocks).du.leaving = false) :
    ∃ t, exec c s = .next t ∧ t.re = s.re ∧ Evolves (f s.view s.blocks) t.blocks :=
  ⟨_, h, rfl, State.finish_evolves (s.mapBlocks f) hl⟩

/-! ### The listen period (R23) -/

theorem found_aside (v : View) (b : Blocks) : Aside (inState v .active (setListen none false b)) (found v b) := by
  have henter := enterState_reoffers v (new := .active) (b := setListen none false b) (by simp [isMember])
  exact (henter.toAside.trans (raise_reoffers .founded _).toAside).trans
    ((orphanCheck_reoffers v _).toAside.trans (bringIntoLine_aside v false _))

theorem found_attends (v : View) (b : Blocks) : Attends (raise .founded (enterState v .active (setListen none false b)))
    (found v b) := (orphanCheck_attends v _).trans (bringIntoLine_attends v false _)

theorem found_leaving {v : View} {b : Blocks} (h : b.du.leaving = false) : (found v b).du.leaving = false :=
  ((enterState_attends v .active (setListen none false b)).trans
    ((raise_attends .founded _).trans (found_attends v b))).leaving h

theorem listenExpired_founds {v : View} {b : Blocks} (htimer : b.pu.listenTimer.isSome = true)
    (h : b.station = .listening ∨ b.station = .joining ∧ b.pu.listenWait = true ∧ memberPresent b = false ∧
      mayFound v b = true) : listenExpired v b = found v b := by
  obtain ⟨n, hn⟩ := Option.isSome_iff_exists.mp htimer
  rcases h with hs | ⟨hs, hw, hm, hf⟩
  · simp [listenExpired, hn, hs]
  · simp [listenExpired, examineListen, hn, hs, hw, hm, hf]

theorem beginAttempt_asks {v : View} {b : Blocks} {ref : Nat} (h : chooseReference b = some ref) :
    beginAttempt v b = enqueueReq ref { b with cu := { b.cu.begun with phase := .requesting, reference := some ref } } := by
  have hchoose : chooseReference { b with cu := b.cu.begun } = some ref := h
  unfold beginAttempt
  change (match chooseReference { b with cu := b.cu.begun } with | some r => _ | none => _) = _
  rw [hchoose]
  rfl

/-- Settles O27. -/
theorem listenPeriodEnds : Obligations.ListenPeriodEnds := by
  intro s htimer hleaving
  refine ⟨fun h => ?_, fun ref hs hw hm href => ?_, fun hs hw hm hf => ?_⟩
  · have hfounds : listenExpired s.view s.blocks = found s.view s.blocks := listenExpired_founds htimer h
    obtain ⟨t, ht, -, hevolves⟩ := exec_onBlocks (c := .listenTimerExpiry) (f := listenExpired) (s := s) rfl
      (by rw [hfounds]; exact found_leaving hleaving)
    rw [hfounds] at hevolves
    have haside := (found_aside s.view s.blocks).trans hevolves.aside
    exact ⟨t, ht, haside.station, haside.listenTimer, haside.listenWait, haside.beaconTimer,
      hevolves.reported ((found_attends _ _).reported _ (raise_reported _ _))⟩
  · obtain ⟨n, hn⟩ := Option.isSome_iff_exists.mp htimer
    have hcatch : listenExpired s.view s.blocks = enqueueReq ref { setListen none false s.blocks with
        cu := { ({ s.blocks.cu with attempts := 0 } : CatchUpUnit).begun with phase := .requesting, reference := some ref } } := by
      simp only [listenExpired, examineListen, hn, hs, hw, hm, if_true]
      exact beginAttempt_asks (b := { setListen none false s.blocks with cu := { s.blocks.cu with attempts := 0 } }) href
    have hoffer := offer_reoffers .catchReq ref .cu false { setListen none false s.blocks with
        cu := { ({ s.blocks.cu with attempts := 0 } : CatchUpUnit).begun with phase := .requesting, reference := some ref } }
    obtain ⟨t, ht, -, hevolves⟩ := exec_onBlocks (c := .listenTimerExpiry) (f := listenExpired) (s := s) rfl
      (by rw [hcatch]; exact (offer_attends ..).leaving hleaving)
    rw [hcatch] at hevolves
    have haside := hoffer.toAside.trans hevolves.aside
    refine ⟨t, ht, haside.station.trans hs, haside.listenTimer, haside.listenWait, ?_, ?_, ?_⟩
    · rw [haside.cu]
    · rw [haside.cu]
    · rw [haside.cu]; rfl
  · obtain ⟨n, hn⟩ := Option.isSome_iff_exists.mp htimer
    have hwaits : listenExpired s.view s.blocks = setListen (some Config.listenMs) true s.blocks := by
      simp [listenExpired, examineListen, hn, hs, hw, hm, hf]
    obtain ⟨t, ht, -, hevolves⟩ := exec_onBlocks (c := .listenTimerExpiry) (f := listenExpired) (s := s) rfl
      (by rw [hwaits]; exact hleaving)
    rw [hwaits] at hevolves
    exact ⟨t, ht, hevolves.aside.station.trans hs, hevolves.aside.listenTimer, hevolves.aside.listenWait⟩

/-! ### The beacon, silence and park timers (R25, R26, R32) -/

theorem peer_id (p : PresenceUnit) (n : Nat) : (p.peer n).id = n := by
  unfold PresenceUnit.peer
  cases h : p.peers.find? fun r => r.id == n with
  | none => rfl
  | some r => simpa using List.find?_some h

theorem catchUpAbsent_attends (v : View) (p : Nat) (b : Blocks) : Attends b (catchUpAbsent v p b) := by
  have hsession : Attends b (match b.cu.session with
      | some ss => if ss.requester == p then endSession b else b
      | none => b) := by
    split
    · exact .ite (endSession_attends b) (.refl b)
    · exact .refl b
  exact hsession.trans (.ite (failAttempt_attends ..) (.refl _))

/-- A peer whose silence timer has passed its limit. -/
theorem silenceExpired_silent {v : View} {p : Nat} {b : Blocks} (h : (b.pu.peer p).silent = true) :
    Attends (raise (.peerAbsent p) { b with pu := { b.pu with
      peers := setPeer { b.pu.peer p with state := .absent, silence := none } b.pu.peers } }) (silenceExpired v p b) := by
  simp only [silenceExpired, h, if_true]
  exact (orphanCheck_attends v _).trans (catchUpAbsent_attends v p _)

theorem silent_eq {r : PeerRec} {n : Nat} (hp : r.state = .present) (hn : r.silence = some n) :
    r.silent = decide (r.silenceLimit < n) := by
  simp [PeerRec.silent, hp, hn]

theorem park_reoffers (v : View) (b : Blocks) : Reoffers (inState v .parked b) (park v b) :=
  ((enterState_reoffers v (by simp [isMember])).trans (raise_reoffers .parked _)).trans (orphanCheck_reoffers v _)

/-- The park timer runs in ACTIVE alone (R32). -/
theorem finish_parkTimer {v : View} {b : Blocks} (h : (completeLeave v (settle v b)).station ≠ .active) :
    (finish v b).pu.parkTimer = none := by
  have hcondition : parkCondition v (completeLeave v (settle v b)) = false := by
    simp [parkCondition, h]
  rw [finish, keepParkTimer, hcondition]
  rfl

theorem completeLeave_of_not_leaving {v : View} {b : Blocks} (h : b.du.leaving = false) : completeLeave v b = b := by
  rw [completeLeave, leaveComplete, h]
  rfl

/-- Settles O28. -/
theorem presenceTimersExpire : Obligations.PresenceTimersExpire := by
  refine ⟨fun s htimer haccepts => ?_, fun s p n limit hpresent hn hlimit => ?_, fun s hleaving hactive htimer => ?_⟩
  · obtain ⟨n, hn⟩ := Option.isSome_iff_exists.mp htimer
    have hoffer : beaconExpired s.view s.blocks = { s.blocks with
        pu := { s.blocks.pu with beaconTimer := some s.config.beaconInterval }
        lc := offerLc ⟨blankBeacon, 63, .pu, false, 0, false, false⟩ s.blocks.lc } := by
      simp only [beaconExpired, hn]
      exact if_pos haccepts
    change Host.Outcome.next (State.finish { s with blocks := beaconExpired s.view s.blocks }) = _
    rw [hoffer]
    rfl
  · have hsilent := silent_eq hpresent hn
    have hlim : (s.blocks.pu.peer p).silenceLimit = limit := hlimit.symm
    rw [hlim] at hsilent
    refine ⟨fun hlt hleaving => ?_, fun hle => ?_⟩
    · have hattends := silenceExpired_silent (v := s.view) (by rw [hsilent]; exact decide_eq_true hlt)
      obtain ⟨t, ht, -, hevolves⟩ := exec_onBlocks (c := .silenceTimerExpiry p) (f := fun v b => silenceExpired v p b)
        (s := s) rfl (hattends.leaving hleaving)
      have hrest := hattends.trans hevolves.attends
      have hpeer := fun q => (peer_congr hrest.peers q).trans (peer_setPeer _ s.blocks.pu q)
      refine ⟨t, ht, (hpeer p).trans (if_pos (peer_id ..)), fun q hq => (hpeer q).trans (if_neg ?_),
        hrest.reported _ (raise_reported _ _)⟩
      rw [peer_id]
      exact fun heq => hq heq.symm
    · have hnot : (s.blocks.pu.peer p).silent = false := by
        rw [hsilent]
        exact decide_eq_false (Nat.not_lt.mpr hle)
      have hsame : silenceExpired s.view p s.blocks = s.blocks := by simp only [silenceExpired, hnot, Bool.false_eq_true, if_false]
      change Host.Outcome.next (State.finish { s with blocks := silenceExpired s.view p s.blocks }) = _
      rw [hsame]
  · obtain ⟨n, hn⟩ := Option.isSome_iff_exists.mp htimer
    have hparks : parkExpired s.view s.blocks = park s.view s.blocks := by simp [parkExpired, hn, hactive]
    have hreported : (park s.view s.blocks).reported .parked := (orphanCheck_attends _ _).reported _ (raise_reported _ _)
    have hleft : (park s.view s.blocks).du.leaving = false :=
      ((enterState_attends _ _ _).trans ((raise_attends .parked _).trans (orphanCheck_attends _ _))).leaving hleaving
    have hpark := (park_reoffers s.view s.blocks).toAside
    have hevolves := finish_evolves s.view (park s.view s.blocks) hleft
    have hsettled := (settle_evolves s.view (park s.view s.blocks))
    have hexec : exec .parkTimerExpiry s = .next { s with blocks := finish s.view (park s.view s.blocks) } := by
      rw [← hparks]
      rfl
    refine ⟨_, hexec, (hpark.trans hevolves.aside).station, finish_parkTimer ?_, (hpark.trans hevolves.aside).beaconTimer, rfl,
      hevolves.reported hreported⟩
    rw [completeLeave_of_not_leaving (hsettled.leaving.trans hleft), hsettled.station, hpark.station]
    exact nofun

/-! ### The Catch-up Unit's timers (R64, R65, R71, R75) -/

theorem failAttempt_isolated {v : View} {c : AttemptCause} {b : Blocks} (h : v.cfg.attemptLimit ≤ b.cu.attempts + 1) :
    (failAttempt v c b).reported (.isolated c) := by
  rw [failAttempt_eq, if_pos h, isolate]
  refine (releaseChecks_attends v _).reported _ ?_
  have hraised : (raise (.isolated c) (enterState v .isolated (attemptFailed v c b))).reported (.isolated c) := raise_reported _ _
  split
  · exact (Attends.ite ((endRequest_evolves _).attends.trans (askAgain_attends v _ _ _)) (.refl _)).reported _ hraised
  · exact hraised

theorem enqueueReq_accepted {ref : Nat} {b : Blocks} (h : acceptsFrames b.station = true) :
    enqueueReq ref b = { b with lc := offerLc ⟨.catchReq, ref, .cu, false, 0, false, false⟩ b.lc } := by
  rw [enqueueReq, offer, if_pos h]

/-- Settles O29. -/
theorem attemptTimersExpire : Obligations.AttemptTimersExpire := by
  refine ⟨fun s c cause hleaving h => ?_, fun s ref haccepts => ⟨fun htimer href => ?_, fun htimer href => ?_⟩⟩
  · have hexec : exec c s = .next (State.finish (s.mapBlocks fun v b => failAttempt v cause b)) := by
      rcases h with ⟨rfl, htimer, rfl⟩ | ⟨rfl, htimer, rfl⟩
      · obtain ⟨n, hn⟩ := Option.isSome_iff_exists.mp htimer
        have hfails : answerExpired s.view s.blocks = failAttempt s.view .noAnswer s.blocks := by simp only [answerExpired, hn]
        change Host.Outcome.next (State.finish { s with blocks := answerExpired s.view s.blocks }) = _
        rw [hfails]
        rfl
      · obtain ⟨n, hn⟩ := Option.isSome_iff_exists.mp htimer
        have hfails : snapshotExpired s.view s.blocks = failAttempt s.view .silence s.blocks := by
          simp only [snapshotExpired, hn]
        change Host.Outcome.next (State.finish { s with blocks := snapshotExpired s.view s.blocks }) = _
        rw [hfails]
        rfl
    obtain ⟨t, ht, hre, hevolves⟩ := exec_onBlocks hexec ((failAttempt_attends ..).leaving hleaving)
    have hcu := failAttempt_cu s.view cause s.blocks
    rw [← hevolves.cu] at hcu
    have hstation := hevolves.station.trans (failAttempt_station ..)
    refine ⟨t, ht, hre, congrArg CatchUpUnit.attempts hcu, congrArg CatchUpUnit.reference hcu,
      congrArg CatchUpUnit.buffer hcu, congrArg CatchUpUnit.answerTimer hcu, congrArg CatchUpUnit.snapshotTimer hcu,
      congrArg CatchUpUnit.deferTimer hcu, hevolves.reported (failAttempt_reported ..), fun hbelow => ?_, fun hlimit => ?_⟩
    · have hnot : ¬ s.view.cfg.attemptLimit ≤ s.blocks.cu.attempts + 1 := Nat.not_le.mpr hbelow
      exact ⟨hstation.trans (if_neg hnot), (congrArg CatchUpUnit.phase hcu).trans (if_neg hnot),
        (congrArg CatchUpUnit.retryTimer hcu).trans (if_neg hnot)⟩
    · have hat : s.view.cfg.attemptLimit ≤ s.blocks.cu.attempts + 1 := hlimit
      exact ⟨hstation.trans (if_pos hat), (congrArg CatchUpUnit.phase hcu).trans (if_pos hat),
        (congrArg CatchUpUnit.retryTimer hcu).trans (if_pos hat), hevolves.reported (failAttempt_isolated hat)⟩
  · obtain ⟨n, hn⟩ := Option.isSome_iff_exists.mp htimer
    have hasks : deferExpired s.blocks
        = enqueueReq ref { s.blocks with cu := { s.blocks.cu with phase := .requesting, deferTimer := none } } := by
      simp only [deferExpired, hn, href]
    change Host.Outcome.next (State.finish { s with blocks := deferExpired s.blocks }) = _
    rw [hasks, enqueueReq_accepted]
    · rfl
    · exact haccepts
  · obtain ⟨n, hn⟩ := Option.isSome_iff_exists.mp htimer
    have hasks : retryExpired s.view s.blocks
        = enqueueReq ref { s.blocks with cu := { s.blocks.cu.begun with phase := .requesting, reference := some ref } } := by
      simp only [retryExpired, hn]
      exact beginAttempt_asks href
    change Host.Outcome.next (State.finish { s with blocks := retryExpired s.view s.blocks }) = _
    rw [hasks, enqueueReq_accepted]
    · rfl
    · exact haccepts

/-! ### Deference timers (R83 to R85) -/

theorem accepts_of_member {st : StationState} (h : isMember st = true) : acceptsFrames st = true := by
  revert h
  cases st <;> decide

theorem eligible_member {v : View} {b : Blocks} {l : LotRec} {x : StepRec} (h : eligible v b l x = true) :
    isMember b.station = true := by
  simp only [eligible, Bool.and_eq_true] at h
  exact h.1.1.1.1.1.1.1

theorem eligibleFor_member {v : View} {b : Blocks} {lot k : Nat} (h : eligibleFor v b lot k = true) :
    isMember b.station = true := by
  unfold eligibleFor at h
  split at h
  · split at h
    · exact eligible_member h
    · cases h
  · cases h

theorem enqueueBid_member {lot k : Nat} {b : Blocks} (h : isMember b.station = true) :
    enqueueBid lot k b = { b with lc := offerLc ⟨.bid lot k, 63, .du, false, 0, false, false⟩ b.lc } := by
  rw [enqueueBid, offer, if_pos (accepts_of_member h)]
  rfl

/-- A deference timer has no part in the eligibility of the station. -/
theorem deferenceExpired_running {v : View} {lot k : Nat} {b : Blocks} (h : b.du.deferring lot k = true) :
    deferenceExpired v lot k b =
      if eligibleFor v b lot k then enqueueBid lot k (stopDeference lot k b) else stopDeference lot k b := by
  rw [deferenceExpired, if_pos h]
  rfl

/-- Settles O30. -/
theorem deferenceTimersStartAndEnd : Obligations.DeferenceTimersStartAndEnd := by
  refine ⟨fun v b l k x ms hdeferring hbid heligible hms => ?_, fun s lot k hdeferring => ⟨fun heligible => ?_, fun hnot => ?_⟩⟩
  · have hduration : deferenceMs v b x.spec = ms := by
      rw [hms, deferenceMs]
      simp only [beq_iff_eq]
    have hstart : deferStep v l k x b = startDeference v l k x b := by
      simp only [deferStep, hdeferring, hbid, heligible, Bool.false_eq_true, if_false, if_true]
    rw [hstart, startDeference, hduration]
    simp only [enqueueBid_member (eligible_member heligible)]
  · change Host.Outcome.next (State.finish { s with blocks := deferenceExpired s.view lot k s.blocks }) = _
    rw [deferenceExpired_running hdeferring, if_pos heligible,
      enqueueBid_member (b := stopDeference lot k s.blocks) (eligibleFor_member heligible)]
    rfl
  · change Host.Outcome.next (State.finish { s with blocks := deferenceExpired s.view lot k s.blocks }) = _
    rw [deferenceExpired_running hdeferring, hnot, if_neg Bool.false_ne_true]
    rfl

/-! ### A timer that does not run (log 2) -/

theorem opSlot_idle {b : Blocks} (k : OpKind) (h : b.le.op = none) : opSlot b k = none := by
  simp only [opSlot, h]

/-- Settles O32. -/
theorem stoppedTimersDoNotExpire : Obligations.StoppedTimersDoNotExpire := by
  intro c s h
  have hidle : ∀ f : View → Blocks → Blocks, exec c s = .next (State.finish (s.mapBlocks f)) →
      f s.view s.blocks = s.blocks → exec c s = .next s.finish := fun f hexec hsame => by
    rw [hexec, State.mapBlocks, hsame]
  rcases h with ⟨rfl, ht⟩ | ⟨rfl, ht⟩ | ⟨rfl, ht⟩ | ⟨rfl, ht⟩ | ⟨rfl, ht⟩ | ⟨rfl, ht⟩ | ⟨rfl, ht⟩ | ⟨p, rfl, ht⟩ |
    ⟨l, k, rfl, ht⟩ | ⟨rfl | rfl | rfl | rfl, ht⟩ | ⟨rfl, ht⟩
  · exact hidle listenExpired rfl (by simp only [listenExpired, ht])
  · exact hidle beaconExpired rfl (by simp only [beaconExpired, ht])
  · exact hidle parkExpired rfl (by simp only [parkExpired, ht])
  · exact hidle answerExpired rfl (by simp only [answerExpired, ht])
  · exact hidle snapshotExpired rfl (by simp only [snapshotExpired, ht])
  · exact hidle (fun _ b => deferExpired b) rfl (by simp only [deferExpired, ht])
  · exact hidle retryExpired rfl (by simp only [retryExpired, ht])
  · refine hidle (fun v b => silenceExpired v p b) rfl ?_
    simp only [silenceExpired, PeerRec.silent, ht, Bool.and_false, Bool.false_eq_true, if_false]
  · refine hidle (fun v b => deferenceExpired v l k b) rfl ?_
    simp only [deferenceExpired, ht, Bool.false_eq_true, if_false]
  · exact hidle blockExpired rfl (by simp only [blockExpired, opSlot_idle .load ht])
  · exact hidle verifyExpired rfl (by simp only [verifyExpired, opSlot_idle .verify ht])
  · exact hidle (fun _ b => swapExpired b) rfl (by simp [swapExpired, opIs, ht])
  · exact hidle (fun _ b => purgeExpired b) rfl (by simp only [purgeExpired, opSlot_idle .purge ht])
  · exact hidle insertionTimeout rfl (by simp only [insertionTimeout, ht])

end Sys2Proof.Machine
end

section
/-! The requests of the host that are answered at once (R173): reports (O48), CONFIGURE (O49), the lot requests (O52), the
hold requests (O55), the kit requests (O56), the band requests (O58). -/

namespace Sys2Proof.Machine

/-! ### A request that is taken at once -/

/-- A command that carries a request whole is that request (Table 11.1). -/
theorem exec_request {c : Instr} {r : Request} (h : carried c = some r) (s : State) : exec c s = .next (request r s) := by
  cases c <;> cases h <;> rfl

/-- The state where a request has been acted upon and answered, before the evaluations. -/
def State.answered (s : State) (type : Nat) (x : Answer × Blocks) : State :=
  State.respond { s.taking with blocks := x.2 } type x.1.code x.1.index x.1.content

/-- A request that acts on the blocks alone, taken at once. -/
theorem exec_answered {c : Instr} {r : Request} {s : State} (h : s.TakesAtOnce) (hc : carried c = some r)
    (hr : handle r s.taking = ((blocksRequest s.view r s.taking.blocks).1,
      { s.taking with blocks := (blocksRequest s.view r s.taking.blocks).2 })) :
    exec c s = .next (s.answered r.type (blocksRequest s.view r s.taking.blocks)).finish := by
  rw [exec_request hc, request_taken s r h, hr]
  rfl

theorem next_congr {s t : State} (h : s = t) :
    (.next s.finish : Host.Outcome State Fault Refusal) = .next t.finish := by rw [h]

/-! The taking of a request changes the park timer alone. -/

@[simp] theorem view_cfg (s : State) : s.view.cfg = s.config := rfl
@[simp] theorem taking_station (s : State) : s.taking.blocks.station = s.blocks.station := rfl
@[simp] theorem taking_lc (s : State) : s.taking.blocks.lc = s.blocks.lc := rfl
@[simp] theorem taking_du (s : State) : s.taking.blocks.du = s.blocks.du := rfl
@[simp] theorem taking_hr (s : State) : s.taking.blocks.hr = s.blocks.hr := rfl
@[simp] theorem taking_iw (s : State) : s.taking.blocks.iw = s.blocks.iw := rfl
@[simp] theorem taking_cli (s : State) : s.taking.blocks.cli = s.blocks.cli := rfl

theorem answered_code (s : State) (type : Nat) (c : RespCode) :
    s.answered type (answer c, s.taking.blocks) = s.taking.respondCode type c := rfl

theorem answered_bad (s : State) (type i : Nat) : s.answered type (badField i, s.taking.blocks) = s.taking.respondBad type i :=
  rfl

/-- A host frame joins the Send Queue while there is room for it (R8). -/
theorem offer_host {b : Blocks} (body : FrameBody) (owner : Owner) (hbeacon : isBeacon body = false)
    (haccepts : acceptsFrames b.station = true) (hroom : b.lc.hostRoom = true) :
    offer body allStations owner true b = { b with lc := { b.lc with
      queue := insertEntry ⟨body, 63, owner, true, 0, false, false⟩ b.lc.queue } } := by
  obtain ⟨-, hlength⟩ := (hostRoom_iff b.lc).mp hroom
  rw [offer, if_pos haccepts, offerLc]
  simp only [hbeacon, Bool.false_and, Bool.false_eq_true, if_false, if_pos hlength]
  rfl

theorem answered_enqueueHost (s : State) (type : Nat) (body : FrameBody) (owner : Owner) (hbeacon : isBeacon body = false)
    (haccepts : acceptsFrames s.blocks.station = true) :
    s.answered type (enqueueHost body owner s.taking.blocks) =
      if s.blocks.lc.hostRoom = false then s.taking.respondCode type .queueFull
      else (s.taking.enqueue body owner).respondCode type .ok := by
  unfold enqueueHost
  cases hroom : s.blocks.lc.hostRoom
  · rw [if_neg (by rw [show s.taking.blocks.lc.hostRoom = false from hroom]; exact Bool.false_ne_true), if_pos rfl]
    rfl
  · rw [if_pos (show s.taking.blocks.lc.hostRoom = true from hroom), if_neg (by simp),
      offer_host (b := s.taking.blocks) body owner hbeacon haccepts hroom]
    rfl

theorem accepts_of_working {st : StationState} (h : isWorking st = true) : acceptsFrames st = true := by
  revert h
  cases st <;> decide

/-! ### Reports (R173, R178, R179) -/

theorem readLotAnswer_present {v : View} {b : Blocks} {lot : Nat} {l : LotRec} (hlot : lot ≠ 0)
    (hl : v.rep.lot? lot = some l) : readLotAnswer v b lot = report (.lot l (b.du.release? lot)) := by
  rw [readLotAnswer, if_neg hlot, hl]

theorem readLotAnswer_absent {v : View} {b : Blocks} {lot : Nat} (hlot : lot ≠ 0) (hl : v.rep.lot? lot = none) :
    readLotAnswer v b lot = if lot ∈ v.rep.ring then report (.shipped lot) else answer .notFound := by
  rw [readLotAnswer, if_neg hlot, hl]
  simp only [List.contains_iff_mem]

/-- Settles O48. -/
theorem reportsAndResetAreAnswered : Obligations.ReportsAndResetAreAnswered := by
  refine ⟨fun s lot h => ?_, fun s h => ⟨?_, ?_, ?_, ?_, ?_, ?_⟩, fun s type payload h => ⟨?_, ?_, fun htype => ?_⟩⟩
  · have hread : ∀ n x, readLotAnswer s.view s.taking.blocks n = x →
        exec (.readLot n) s = .next (s.answered 7 (x, s.taking.blocks)).finish := fun n x hx =>
      hx ▸ exec_answered (r := .readLot n) h rfl rfl
    refine ⟨hread 0 _ rfl, fun hlot l hl => hread lot _ (readLotAnswer_present hlot hl), fun hlot hnone hring => ?_,
      fun hlot hnone hring => ?_⟩
    · exact hread lot _ ((readLotAnswer_absent hlot hnone).trans (if_pos hring))
    · exact hread lot _ ((readLotAnswer_absent hlot hnone).trans (if_neg hring))
  · exact exec_answered (r := .readHolds) h rfl rfl
  · exact exec_answered (r := .readKits) h rfl rfl
  · exact exec_answered (r := .readPeers) h rfl rfl
  · exact exec_answered (r := .readQueue) h rfl rfl
  · exact exec_answered (r := .readSites) h rfl rfl
  · exact exec_answered (r := .readSlots) h rfl rfl
  · exact exec_answered (r := .status) h rfl rfl
  · exact exec_answered (r := .reset) h rfl rfl
  · have hunknown : requestOf type payload = .unknown type := if_neg (by simp; omega)
    exact exec_answered (r := .unknown type) h (congrArg some hunknown) rfl

/-! ### CONFIGURE (R176) -/

theorem exec_configure {s : State} {f : ConfigFields} (h : s.TakesAtOnce) :
    exec (.configure f) s = .next (State.finish (State.respond (configureRequest f s.taking).2 1
      (configureRequest f s.taking).1.code (configureRequest f s.taking).1.index
      (configureRequest f s.taking).1.content)) := by
  rw [exec_request (r := .configure f) rfl, request_taken s _ h]
  rfl

/-- Settles O49. -/
theorem configureSetsTheRecord : Obligations.ConfigureSetsTheRecord := by
  intro s f h
  rw [exec_configure h, configureRequest]
  have hstation : s.taking.blocks.station = s.blocks.station := rfl
  refine ⟨fun hs => ?_, fun i hs hbad => ?_, fun hs hgood => ?_⟩
  · rw [hstation, if_pos (bne_iff_ne.mpr hs)]
    rfl
  · rw [hstation, hs, hbad]
    rfl
  · rw [hstation, hs, hgood]
    rfl

/-! ### Lots (R78, R97, R98) -/

theorem postOf_eq (f : LotFields) : postOf f = ⟨f.lot, f.device, f.posted, f.lostAllowance, f.steps.map fun x =>
    ⟨x.program, x.revision, x.blocks, x.checksum, (bandOf x.band).getD .ambient, x.family, x.passBins⟩⟩ := rfl

/-- The tests of a request, one after another. -/
theorem answered_ite {s : State} {type : Nat} {p q : Prop} [Decidable p] [Decidable q] {x y : Answer × Blocks} {t u : State}
    (h : p ↔ q) (hx : s.answered type x = t) (hy : s.answered type y = u) :
    s.answered type (if p then x else y) = if q then t else u := by
  rw [apply_ite (s.answered type), hx, hy]
  exact if_congr h rfl rfl

theorem answered_of_member {s : State} {type : Nat} {x : Answer × Blocks} {t : State}
    (h : isMember s.blocks.station = true → s.answered type x = t) :
    s.answered type (if !isMember s.taking.blocks.station then (answer .badState, s.taking.blocks) else x) =
      if isMember s.blocks.station = false then s.taking.respondCode type .badState else t := by
  cases hm : isMember s.blocks.station
  · rw [taking_station, hm]
    rfl
  · rw [taking_station, hm]
    exact h hm

theorem answered_of_working {s : State} {type : Nat} {x : Answer × Blocks} {t : State}
    (h : isWorking s.blocks.station = true → s.answered type x = t) :
    s.answered type (if !isWorking s.taking.blocks.station then (answer .badState, s.taking.blocks) else x) =
      if isWorking s.blocks.station = false then s.taking.respondCode type .badState else t := by
  cases hw : isWorking s.blocks.station
  · rw [taking_station, hw]
    rfl
  · rw [taking_station, hw]
    exact h hw

/-- Settles O52. -/
theorem lotRequestsAreAnswered : Obligations.LotRequestsAreAnswered := by
  refine ⟨fun s f h => ?_, fun s lot h => ⟨?_, ?_⟩⟩
  · refine (exec_answered (r := .postLot f) h rfl rfl).trans (next_congr (answered_of_member fun hm => ?_))
    cases firstBad (postChecks f) with
    | some i => rfl
    | none =>
      exact answered_ite Iff.rfl rfl (answered_ite Iff.rfl rfl
        (answered_enqueueHost s 14 (.post (postOf f)) .du rfl (accepts_of_member hm)))
  · refine (exec_answered (r := .withdrawLot lot) h rfl rfl).trans (next_congr (answered_of_member fun hm => ?_))
    change s.answered 15 (match s.re.replica.lot? lot with | none => _ | some l => _) = _
    cases s.re.replica.lot? lot with
    | none => rfl
    | some l =>
      exact answered_ite Iff.rfl rfl (answered_enqueueHost s 15 (.withdraw lot) .du rfl (accepts_of_member hm))
  · refine (exec_answered (r := .resumeLot lot) h rfl rfl).trans (next_congr (answered_of_member fun hm => ?_))
    change s.answered 16 (match s.re.replica.lot? lot with | none => _ | some _ => _) = _
    cases s.re.replica.lot? lot with
    | none => rfl
    | some l => exact answered_enqueueHost s 16 (.resume lot) .du rfl (accepts_of_member hm)

/-! ### Holds (R151, R156) -/

theorem freeSerial_congr {v : View} {b c : Blocks} (h : ∀ sn, serialInUse v b sn = serialInUse v c sn) :
    ∀ (n : Nat) (sn : BitVec 8), freeSerial v b n sn = freeSerial v c n sn
  | 0, _ => rfl
  | n + 1, sn => by rw [freeSerial, freeSerial, h, freeSerial_congr h n]

theorem nextSerial_taking (v : View) (s : State) : nextSerial v s.taking.blocks = nextSerial v s.blocks := by
  unfold nextSerial
  rw [freeSerial_congr (b := s.taking.blocks) (c := s.blocks) fun _ => rfl]
  rfl

/-- The accepted hold takes the next serial and joins the Send Queue. -/
theorem answered_enqueueHold {s : State} {target : HoldTarget} {level : Level}
    (haccepts : acceptsFrames s.blocks.station = true) :
    s.answered 20 (if s.taking.blocks.lc.hostRoom then
        (okAnswer, enqueueHold s.view .cli true target level .host s.taking.blocks)
      else (answer .queueFull, s.taking.blocks)) =
      if s.blocks.lc.hostRoom = false then s.taking.respondCode 20 .queueFull
      else State.respondCode (State.enqueue
        (s.taking.withCli { s.blocks.cli with serial := nextSerial s.view s.blocks + 1 })
        (.hold (nextSerial s.view s.blocks) target level .host) .cli) 20 .ok := by
  cases hroom : s.blocks.lc.hostRoom
  · rw [taking_lc, hroom]
    rfl
  · have hoffer : enqueueHold s.view .cli true target level .host s.taking.blocks
        = (State.enqueue (s.taking.withCli { s.blocks.cli with serial := nextSerial s.view s.blocks + 1 })
          (.hold (nextSerial s.view s.blocks) target level .host) .cli).blocks := by
      unfold enqueueHold
      rw [nextSerial_taking]
      exact offer_host (b := { s.taking.blocks with cli := { s.blocks.cli with serial := _ } }) _ .cli rfl haccepts hroom
    rw [taking_lc, hroom, if_pos rfl, if_neg (by simp), hoffer]
    rfl

theorem ownHoldOn_taking (s : State) (t : HoldTarget) : ownHoldOn s.taking.blocks t = ownHoldOn s.blocks t := rfl

/-- Settles O55. -/
theorem holdRequestsAreAnswered : Obligations.HoldRequestsAreAnswered := by
  refine ⟨fun s scope level tb h => ?_, fun s origin serial h => ?_⟩
  · refine (exec_answered (r := .placeHold scope tb level) h rfl rfl).trans (next_congr (answered_of_working fun hw => ?_))
    cases holdTargetOf scope tb with
    | none => rfl
    | some target =>
      refine answered_ite (by simp) rfl ?_
      cases levelOf level with
      | none => rfl
      | some l =>
        exact answered_ite (by simp) rfl (answered_ite (by rw [ownHoldOn_taking]; rfl) rfl (answered_ite Iff.rfl rfl
          (answered_enqueueHold (accepts_of_working hw))))
  · refine (exec_answered (r := .liftHold origin serial) h rfl rfl).trans (next_congr (answered_of_member fun hm => ?_))
    refine answered_ite (by simp) rfl ?_
    change s.answered 21 (match s.re.replica.hold? origin (byte serial) with | none => _ | some _ => _) = _
    rw [show byte serial = BitVec.ofNat 8 serial from rfl]
    cases s.re.replica.hold? origin (BitVec.ofNat 8 serial) with
    | none => rfl
    | some x =>
      exact answered_ite (by simp) rfl 
        (answered_enqueueHost s 21 (.lift origin (BitVec.ofNat 8 serial)) .cli rfl (accepts_of_member hm))

/-! ### Kits (R108) -/

/-- KIT FOUND, KIT SERVICED and KIT RETIRE, by the first of their cases. -/
theorem answered_kitMove (s : State) (type k : Nat) (here : KitRec → Bool) (body : FrameBody)
    (hbeacon : isBeacon body = false) :
    s.answered type (kitMoveRequest s.view k here body s.taking.blocks) =
      (if isMember s.blocks.station = false then s.taking.respondCode type .badState
       else if k = 0 then s.taking.respondBad type 1
       else match s.re.replica.kit? k with
        | none => s.taking.respondCode type .notFound
        | some rec =>
          if here rec = false then s.taking.respondCode type .badState
          else if s.blocks.lc.hostRoom = false then s.taking.respondCode type .queueFull
          else (s.taking.enqueue body .hr).respondCode type .ok) := by
  refine answered_of_member fun hm => answered_ite Iff.rfl rfl ?_
  change s.answered type (match s.re.replica.kit? k with | none => _ | some _ => _) = _
  cases s.re.replica.kit? k with
  | none => rfl
  | some rec =>
    cases hhere : here rec
    · simp only [hhere]
      rfl
    · simp only [hhere, if_true, Bool.true_eq_false, if_false]
      exact answered_enqueueHost s type body .hr hbeacon (accepts_of_member hm)

/-- Settles O56. -/
theorem kitRequestsAreAnswered : Obligations.KitRequestsAreAnswered := by
  intro s k family limit h
  refine ⟨?_, fun c type body fits hc => ?_⟩
  · refine (exec_answered (r := .kitAdd k family limit) h rfl rfl).trans (next_congr (answered_of_member fun hm => ?_))
    change s.answered 22 (match firstBad [(1, k != 0), (2, family != 0), (3, limit != 0)] with | some _ => _ | none => _) = _
    by_cases hk : k = 0
    · subst hk
      rfl
    by_cases hfamily : family = 0
    · subst hfamily
      simp only [firstBad, bne_iff_ne.mpr hk, if_neg hk]
      rfl
    by_cases hlimit : limit = 0
    · subst hlimit
      simp only [firstBad, bne_iff_ne.mpr hk, bne_iff_ne.mpr hfamily, if_neg hk, if_neg hfamily]
      rfl
    simp only [firstBad, bne_iff_ne.mpr hk, bne_iff_ne.mpr hfamily, bne_iff_ne.mpr hlimit, if_neg hk, if_neg hfamily,
      if_neg hlimit, if_true]
    exact answered_ite Iff.rfl rfl (answered_ite Iff.rfl rfl
      (answered_enqueueHost s 22 (.kitAdd k family limit) .hr rfl (accepts_of_member hm)))
  · rcases hc with ⟨rfl, rfl, rfl, rfl⟩ | ⟨rfl, rfl, rfl, rfl⟩ | ⟨rfl, rfl, rfl, rfl⟩
    · exact (exec_answered (r := .kitFound k) h rfl rfl).trans (next_congr (answered_kitMove s 23 k _ (.kitFound k) rfl))
    · exact (exec_answered (r := .kitServiced k) h rfl rfl).trans
        (next_congr (answered_kitMove s 24 k _ (.kitServiced k) rfl))
    · exact (exec_answered (r := .kitRetire k) h rfl rfl).trans (next_congr (answered_kitMove s 25 k _ (.kitRetire k) rfl))

/-! ### The band (R111, R112) -/

theorem bandCode_of_bandOf {code : Nat} {x : Band} (h : bandOf code = some x) : bandCode x = code := by
  unfold bandOf at h
  split at h <;> cases h <;> rfl

/-- Settles O58. -/
theorem bandRequestsAreTaken : Obligations.BandRequestsAreTaken := by
  refine ⟨fun s code h => ?_, fun s code h => ?_⟩
  · refine (exec_answered (r := .bandChange code) h rfl rfl).trans (next_congr ?_)
    change s.answered 28 (match bandOf code with | none => _ | some _ => _) = _
    cases hband : bandOf code with
    | none => rfl
    | some x =>
      exact answered_ite (by simp [reaches, bandCode_of_bandOf hband]) rfl (answered_ite Iff.rfl rfl rfl)
  · refine (exec_answered (r := .bandReady code) h rfl rfl).trans (next_congr ?_)
    change s.answered 29 (match bandOf code with | none => _ | some _ => _) = _
    cases hband : bandOf code with
    | none => rfl
    | some x =>
      by_cases hx : x = s.blocks.hr.band
      · subst hx
        exact answered_ite (by simp) rfl (answered_ite Iff.rfl rfl rfl)
      · rw [if_pos fun he => hx (Option.some.inj he)]
        simp only [taking_hr, bne_iff_ne.mpr hx]
        rfl

end Sys2Proof.Machine
end

section
/-! The messages of the tester and the operation timers: LOAD (O38), what fails (O39), VERIFY, SWAP and PURGE (O40). -/

namespace Sys2Proof.Machine

/-! ### The Load Engine's records -/

theorem setSlot_eq (x : Slot) (r : SlotRec) (b : Blocks) : setSlot x r b = b.withLe (b.le.put x r) true := by
  cases x <;> rfl

theorem setCounts_eq (x : Slot) (p : SlotProgram) (b : Blocks) :
    setCounts x p b = b.withLe (b.le.put x ⟨(b.le.slot x).state, some p⟩) false := by
  cases x <;> rfl

theorem slot_put (l : LoadEngine) (x : Slot) (r : SlotRec) : (l.put x r).slot x = r := by
  cases x <;> rfl

/-- A command that acts on the blocks alone, by what it makes of them. -/
theorem exec_eq {c : Instr} {f : View → Blocks → Blocks} {s : State} {b : Blocks}
    (h : exec c s = .next (State.finish (s.mapBlocks f))) (hf : f s.view s.blocks = b) :
    exec c s = .next (State.finish { s with blocks := b }) := by
  rw [h, State.mapBlocks, hf]

theorem exec_idle {c : Instr} {f : View → Blocks → Blocks} {s : State}
    (h : exec c s = .next (State.finish (s.mapBlocks f))) (hf : f s.view s.blocks = s.blocks) :
    exec c s = .next s.finish := exec_eq h hf

theorem inFlight_of_op {b : Blocks} {k : OpKind} {x : Slot} {sb tm : Nat} (hslot : slotOf sb = some x)
    (hop : b.le.op = some ⟨k, some x, tm⟩) : inFlight b k sb = some x := by
  simp [inFlight, hslot, hop]

theorem inFlight_eq_none {b : Blocks} {k : OpKind} {sb : Nat}
    (h : ¬ ∃ x tm, slotOf sb = some x ∧ b.le.op = some ⟨k, some x, tm⟩) : inFlight b k sb = none := by
  unfold inFlight
  split
  · next op x hop hx =>
    rw [if_neg]
    intro hk
    obtain ⟨kind, slot, tm⟩ := op
    simp only [Bool.and_eq_true, beq_iff_eq] at hk
    obtain ⟨rfl, rfl⟩ := hk
    exact h ⟨x, tm, hx, hop⟩
  · rfl

theorem opSlot_of_op {b : Blocks} {k : OpKind} {x : Slot} {tm : Nat} (hop : b.le.op = some ⟨k, some x, tm⟩) :
    opSlot b k = some x := by
  simp [opSlot, hop]

/-! ### LOAD (R120, R121) -/

theorem blockOk_counts {v : View} {b : Blocks} {x : Slot} {sb : Nat} {p : SlotProgram} (hop : inFlight b .load sb = some x)
    (hp : (b.le.slot x).prog = some p) : blockOk v sb p.done b = b.withLe
      { b.le.put x ⟨(b.le.slot x).state, some { p with done := p.done + 1 }⟩ with
        op := some ⟨.load, some x, v.cfg.blockTimeout⟩ } false := by
  simp only [blockOk, hop, hp, if_true, restartBlockTimer, setCounts_eq]
  rfl

theorem blockBad_reissues {v : View} {b : Blocks} {x : Slot} {sb cause : Nat} {p : SlotProgram}
    (hop : inFlight b .load sb = some x) (hp : (b.le.slot x).prog = some p) (hretry : v.cfg.loadRetry = true)
    (hfew : p.retries < 2) : blockBad v sb p.done cause b = b.withLe
      { b.le.put x ⟨(b.le.slot x).state, some { p with retries := p.retries + 1 }⟩ with
        op := some ⟨.load, some x, v.cfg.blockTimeout⟩
        sent := b.le.sent ++ [.load x p.program p.revision p.done (p.expected - p.done) p.checksum] } false := by
  have hagain : (v.cfg.loadRetry && decide (p.retries < 2)) = true := by simp [hretry, hfew]
  simp only [blockBad, hop, hp, hagain, ne_eq, not_true_eq_false, if_false, if_true, reissue, restartBlockTimer, setCounts_eq]
  cases x <;> rfl

theorem loadEnd_complete {v : View} {b : Blocks} {x : Slot} {sb : Nat} {p : SlotProgram}
    (hop : inFlight b .load sb = some x) (hp : (b.le.slot x).prog = some p) (hdone : p.done = p.expected) :
    loadEnd v sb b = b.withLe
      (if wanted v b (p.program, p.revision) ∧ ¬ v.rep.pairHeld (p.program, p.revision) ∧ b.station ≠ .offline then
        { b.le.put x ⟨.verifying, some p⟩ with
          op := some ⟨.verify, some x, Config.testerMs⟩, sent := b.le.sent ++ [.verify x p.checksum] }
      else { b.le.put x ⟨.loaded, some p⟩ with op := none }) true := by
  have hcond : (wanted v (setSlot x ⟨.loaded, some p⟩ (setOp none b)) (p.program, p.revision)
      && !v.rep.pairHeld (p.program, p.revision) && (setSlot x ⟨.loaded, some p⟩ (setOp none b)).station != .offline) = true ↔
      (wanted v b (p.program, p.revision) ∧ ¬ v.rep.pairHeld (p.program, p.revision) ∧ b.station ≠ .offline) := by
    have hwanted : wanted v (setSlot x ⟨.loaded, some p⟩ (setOp none b)) (p.program, p.revision)
        = wanted v b (p.program, p.revision) := by cases x <;> rfl
    have hstation : (setSlot x ⟨.loaded, some p⟩ (setOp none b)).station = b.station := by cases x <;> rfl
    rw [hwanted, hstation]
    simp [and_assoc]
  simp only [loadEnd, hop, hp, if_pos hdone, loaded]
  rw [if_congr hcond rfl rfl, apply_ite (fun l => b.withLe l true)]
  refine if_congr Iff.rfl ?_ ?_ <;> cases x <;> rfl

/-- Settles O38. -/
theorem blocksAndImagesAreTaken : Obligations.BlocksAndImagesAreTaken := by
  refine ⟨fun s x sb tm p hslot hop hp => ⟨?_, fun cause hretry hfew => ?_⟩, fun s x sb tm p hslot hop hp hdone => ?_⟩
  · exact exec_eq (f := fun v b => blockOk v sb p.done b) rfl (blockOk_counts (inFlight_of_op hslot hop) hp)
  · exact exec_eq (f := fun v b => blockBad v sb p.done cause b) rfl
      (blockBad_reissues (inFlight_of_op hslot hop) hp hretry hfew)
  · exact exec_eq (f := fun v b => loadEnd v sb b) rfl (loadEnd_complete (inFlight_of_op hslot hop) hp hdone)

/-! ### What fails a LOAD or a VERIFY (R120 to R124) -/

theorem failOp_named {v : View} {b : Blocks} {x : Slot} {p : SlotProgram} (c : LoadFailedCause)
    (hp : (b.le.slot x).prog = some p) : failOp v x c b = refusePair v (p.program, p.revision)
      (raise (.loadFailed p.program p.revision x c (notLoaded p) (lastGood p)) (setSlot x ⟨.failed, some p⟩ (setOp none b))) := by
  simp only [failOp, hp]

/-- The pair joins the Refusal List, and notices stay (R99). -/
theorem refusePair_refuses (v : View) (p : Nat × Nat) (b : Blocks) :
    (refusePair v p b).du.refusals = addRefusal p b.du.refusals ∧ ∀ n, b.reported n → (refusePair v p b).reported n := by
  have hcedes := setCedes_evolves .load (b.du.queue.filter fun e => entryPair v e == some p)
    (markDue { b with du := { b.du with refusals := addRefusal p b.du.refusals } })
  exact ⟨hcedes.refusals, fun n hn => hcedes.reported hn⟩

/-- Settles O39. -/
theorem loadsFail : Obligations.LoadsFail := by
  intro s c x sb tm p kind cause hleaving hslot hop hp h
  have hexec : exec c s = .next (State.finish (s.mapBlocks fun v b => failOp v x cause b)) := by
    rcases h with ⟨rfl, rfl, rfl⟩ | ⟨rfl, rfl, n, hn, rfl | ⟨w, rfl⟩⟩ | ⟨rfl, rfl, rfl, hdone⟩ |
      ⟨rfl, ⟨w, rfl, rfl⟩, hspent⟩ | ⟨rfl, rfl, rfl | rfl⟩
    · exact exec_eq (f := blockExpired) rfl (by simp only [blockExpired, opSlot_of_op hop])
    · exact exec_eq (f := fun v b => blockOk v sb n b) rfl (by
        simp only [blockOk, inFlight_of_op hslot hop, hp, if_neg hn])
    · exact exec_eq (f := fun v b => blockBad v sb n w b) rfl (by
        simp only [blockBad, inFlight_of_op hslot hop, hp, if_pos hn])
    · exact exec_eq (f := fun v b => loadEnd v sb b) rfl (by
        simp only [loadEnd, inFlight_of_op hslot hop, hp, if_neg hdone])
    · have hno : (s.view.cfg.loadRetry && decide (p.retries < 2)) = false := by
        rcases hspent with hoff | hmany
        · rw [show s.view.cfg.loadRetry = false from hoff, Bool.false_and]
        · rw [decide_eq_false (Nat.not_lt.mpr hmany), Bool.and_false]
      exact exec_eq (f := fun v b => blockBad v sb p.done w b) rfl (by
        simp only [blockBad, inFlight_of_op hslot hop, hp, hno, ne_eq, not_true_eq_false, Bool.false_eq_true, if_false])
    · exact exec_eq (f := verifyExpired) rfl (by simp only [verifyExpired, opSlot_of_op hop])
    · exact exec_eq (f := fun v b => verifyResult v sb false b) rfl (by
        simp only [verifyResult, inFlight_of_op hslot hop, Bool.false_eq_true, if_false])
  obtain ⟨t, ht, -, hevolves⟩ := exec_onBlocks hexec ((failOp_loads ..).leaving.trans hleaving)
  rw [failOp_named cause hp] at hevolves
  obtain ⟨hrefusals, hreported⟩ := refusePair_refuses s.view (p.program, p.revision)
    (raise (.loadFailed p.program p.revision x cause (notLoaded p) (lastGood p))
      (setSlot x ⟨.failed, some p⟩ (setOp none s.blocks)))
  refine ⟨t, ht, (hevolves.refusals.trans hrefusals).trans ?_, hevolves.reported (hreported _ (raise_reported _ _))⟩
  cases x <;> rfl

/-! ### VERIFY, SWAP and PURGE (R124 to R128) -/

theorem verifyResult_verifies {v : View} {b : Blocks} {x : Slot} {sb : Nat} {p : SlotProgram}
    (hop : inFlight b .verify sb = some x) (hp : (b.le.slot x).prog = some p) :
    verifyResult v sb true b
      = raise (.loadDone p.program p.revision x) (b.withLe { b.le.put x ⟨.verified, some p⟩ with op := none } true) := by
  simp only [verifyResult, hop, if_true, verified, hp, setSlot_eq]
  cases x <;> rfl

theorem swapDone_exchanges {b : Blocks} {o : Option Slot} {tm : Nat} (hop : b.le.op = some ⟨.swap, o, tm⟩) :
    swapDone b = b.withLe { b.le with active := b.le.staged, staged := b.le.active, op := none } true := by
  have hswap : opIs b .swap = true := by simp [opIs, hop]
  rw [swapDone, if_pos hswap]
  rfl

theorem purgeDone_empties {b : Blocks} {x : Slot} {sb : Nat} (hop : inFlight b .purge sb = some x) :
    purgeDone sb b = b.withLe { b.le.put x ⟨.empty, none⟩ with op := none } true := by
  simp only [purgeDone, hop, setSlot_eq]
  cases x <;> rfl

theorem swapExpired_unknown {b : Blocks} {o : Option Slot} {tm : Nat} (hop : b.le.op = some ⟨.swap, o, tm⟩) :
    swapExpired b = raise (.testerProtocol none none .swapTimeout)
      (b.withLe { b.le with active := ⟨.unknown, none⟩, staged := ⟨.unknown, none⟩, op := none } true) := by
  have hswap : opIs b .swap = true := by simp [opIs, hop]
  rw [swapExpired, if_pos hswap]
  rfl

theorem purgeExpired_unknown {b : Blocks} {x : Slot} {tm : Nat} (hop : b.le.op = some ⟨.purge, some x, tm⟩) :
    purgeExpired b = raise (.testerProtocol none none .purgeTimeout)
      (b.withLe { b.le.put x ⟨.unknown, none⟩ with op := none } true) := by
  simp only [purgeExpired, opSlot_of_op hop, setSlot_eq]
  cases x <;> rfl

theorem stray_unexpected {b : Blocks} {type sb : Nat} (h : inFlight b .purge sb = none) :
    stray type sb b = raise (.testerProtocol (some type) (some sb) .unexpected) b := by
  rw [stray, h]
  rfl

theorem stray_purged {b : Blocks} {type sb : Nat} {x : Slot} (h : inFlight b .purge sb = some x) : stray type sb b = b := by
  rw [stray, h]

/-- One operation is in flight at a time. -/
theorem inFlight_other {b : Blocks} {k j : OpKind} {sb : Nat} {x : Slot} (h : inFlight b k sb = some x) (hne : j ≠ k) :
    inFlight b j sb = none := by
  refine inFlight_eq_none ?_
  rintro ⟨y, tm, hy, hop⟩
  have hnot : inFlight b k sb = none := by simp [inFlight, hy, hop, hne]
  rw [hnot] at h
  cases h

/-- Settles O40. -/
theorem testerOperationsEnd : Obligations.TesterOperationsEnd := by
  refine ⟨fun s x sb tm hslot => ⟨fun p hop hp => ?_, fun o hop => ?_, fun hop => ?_⟩,
    fun s tm => ⟨fun o hop => ?_, fun x hop => ?_⟩, fun s sb n w m busy hbusy => ?_⟩
  · exact exec_eq (f := fun v b => verifyResult v sb true b) rfl (verifyResult_verifies (inFlight_of_op hslot hop) hp)
  · exact exec_eq (f := fun _ b => swapDone b) rfl (swapDone_exchanges hop)
  · exact exec_eq (f := fun _ b => purgeDone sb b) rfl (purgeDone_empties (inFlight_of_op hslot hop))
  · exact exec_eq (f := fun _ b => swapExpired b) rfl (swapExpired_unknown hop)
  · exact exec_eq (f := fun _ b => purgeExpired b) rfl (purgeExpired_unknown hop)
  · have hfree : ∀ k, ¬ busy k → inFlight s.blocks k sb = none := fun k hk => inFlight_eq_none fun h => hk ((hbusy k).mpr h)
    have hflies : ∀ k, busy k → ∃ x, inFlight s.blocks k sb = some x := fun k hk => by
      obtain ⟨x, tm, hslot, hop⟩ := (hbusy k).mp hk
      exact ⟨x, inFlight_of_op hslot hop⟩
    refine ⟨fun hload hpurge => ⟨?_, ?_, ?_⟩, fun hverify hpurge => ?_, fun hswap => ?_, fun hpurge => ?_, fun hpurge => ?_⟩
    · exact exec_eq (f := fun v b => blockOk v sb n b) rfl (by
        simp only [blockOk, hfree _ hload, stray_unexpected (hfree _ hpurge)])
    · exact exec_eq (f := fun v b => blockBad v sb n w b) rfl (by
        simp only [blockBad, hfree _ hload, stray_unexpected (hfree _ hpurge)])
    · exact exec_eq (f := fun v b => loadEnd v sb b) rfl (by
        simp only [loadEnd, hfree _ hload, stray_unexpected (hfree _ hpurge)])
    · exact exec_eq (f := fun v b => verifyResult v sb m b) rfl (by
        simp only [verifyResult, hfree _ hverify, stray_unexpected (hfree _ hpurge)])
    · refine exec_eq (f := fun _ b => swapDone b) rfl ?_
      have hno : opIs s.blocks .swap = false := by
        unfold opIs
        split
        · next op hop =>
          obtain ⟨kind, slot, tm⟩ := op
          exact beq_eq_false_iff_ne.mpr fun hk => hswap slot tm (hk ▸ hop)
        · rfl
      rw [swapDone, hno]
      rfl
    · exact exec_eq (f := fun _ b => purgeDone sb b) rfl (by
        simp only [purgeDone, hfree _ hpurge]
        rfl)
    · obtain ⟨x, hx⟩ := hflies .purge hpurge
      have hload : inFlight s.blocks .load sb = none := inFlight_other hx (by decide)
      have hverify : inFlight s.blocks .verify sb = none := inFlight_other hx (by decide)
      exact ⟨exec_idle (f := fun v b => blockOk v sb n b) rfl (by simp only [blockOk, hload, stray_purged hx]),
        exec_idle (f := fun v b => blockBad v sb n w b) rfl (by simp only [blockBad, hload, stray_purged hx]),
        exec_idle (f := fun v b => loadEnd v sb b) rfl (by simp only [loadEnd, hload, stray_purged hx]),
        exec_idle (f := fun v b => verifyResult v sb m b) rfl (by simp only [verifyResult, hverify, stray_purged hx])⟩

end Sys2Proof.Machine
end

section
/-! Bytes of the Tester Line (O41) and of the Cell Line (O45), and SEAT (O42). -/

namespace Sys2Proof.Machine

/-! ### SEAT (R133, R135, R136) -/

theorem seat_idle {v : View} {m : SiteMask} {b : Blocks} (h : b.iw.insertion = .idle) :
    seat v m b = if b.iw.gate then issueGo v (configuredMask v m) b
      else setIw { b.iw with insertion := .waitingGate (configuredMask v m), halt := true } b := by
  simp only [seat, h]

/-- Settles O42. -/
theorem seatIsAnswered : Obligations.SeatIsAnswered := by
  intro s m
  have hseat : ∀ b, seat s.view m s.blocks = b → exec (.seat m) s = .next (State.finish { s with blocks := b }) := fun b hb =>
    exec_eq (f := fun v b => seat v m b) rfl hb
  refine ⟨fun hidle hgate hset => ?_, fun hidle hgate hset => ?_, fun hidle hgate => ?_, fun old hwaiting => ?_,
    fun e n htest => ?_⟩
  · refine hseat _ ?_
    rw [seat_idle hidle, if_pos hgate, issueGo, if_neg (by rwa [List.isEmpty_iff])]
    rfl
  · have hsame : ({ s.blocks with iw := { s.blocks.iw with insertion := .idle } } : Blocks) = s.blocks := by rw [← hidle]
    refine hseat _ ?_
    rw [seat_idle hidle, if_pos hgate, issueGo, if_pos (by rw [hset]; rfl), hsame]
  · refine hseat _ ?_
    rw [seat_idle hidle, hgate]
    rfl
  · exact hseat _ (by simp only [seat, hwaiting, setIw])
  · exact hseat _ (by simp only [seat, htest])

/-! ### The receiver of the Cell Line (R172, R174) -/

theorem beBytes_two (n : Nat) : beBytes 2 n = [byte (n / 256), byte n] := by
  simp [beBytes, byte]

theorem beNat_beBytes_two {n : Nat} (h : n < 65536) : beNat (beBytes 2 n) = n := by
  rw [beBytes_two]
  simp only [beNat, byte, List.foldl_cons, List.foldl_nil, BitVec.toNat_ofNat]
  omega

theorem beBytes_length (n v : Nat) : (beBytes n v).length = n := by
  induction n with
  | zero => rfl
  | succ n ih => rw [beBytes, List.length_cons, ih]

/-- Bytes outside a message are passed over. -/
theorem receiveCell_noSync (s : State) : ∀ (n : Nat) (bs : List Byte), (∀ b ∈ bs, b ≠ 0xC3) → bs.length < n →
    receiveCell n bs s = setCellRx [] s
  | n + 1, [], _, _ => rfl
  | n + 1, b :: bs, hsync, hlength => by
    have hb : ¬ b = cellSync := hsync b List.mem_cons_self
    rw [receiveCell]
    simp only [cellFront, if_neg hb]
    exact receiveCell_noSync s n bs (fun x hx => hsync x (List.mem_cons_of_mem _ hx)) (by simpa using hlength)

/-- A whole message at the front, with its check bytes behind it. -/
theorem cellFront_whole {type : Byte} {payload crc : List Byte} (hlength : payload.length ≤ 2048) (hcrc : crc.length = 2) :
    cellFront (0xC3 :: (beBytes 2 (payload.length + 1) ++ type :: payload) ++ crc) =
      judgeCell (beBytes 2 (payload.length + 1) ++ type :: payload) crc
        (beBytes 2 (payload.length + 1) ++ type :: payload ++ crc) [] := by
  have hlen : beNat (beBytes 2 (payload.length + 1)) = payload.length + 1 := beNat_beBytes_two (by omega)
  rw [beBytes_two] at hlen ⊢
  have hrange : ¬ (decide (payload.length + 1 = 0) || decide (2049 < payload.length + 1)) = true := by
    simp
    omega
  have hlong : ¬ (type :: (payload ++ crc)).length < payload.length + 1 + 2 := by
    simp [hcrc]
  have htake : (type :: (payload ++ crc)).take (payload.length + 1) = type :: payload := by simp
  have hdrop : (type :: (payload ++ crc)).drop (payload.length + 1) = crc := by simp
  have hcheck : crc.take 2 = crc := List.take_of_length_le hcrc.le
  have hrest : (type :: (payload ++ crc)).drop (payload.length + 1 + 2) = [] := List.drop_eq_nil_of_le (by simp [hcrc])
  simp only [List.cons_append, List.nil_append, cellFront, if_pos (show (0xC3 : Byte) = cellSync from rfl), hlen,
    if_neg hrange, if_neg hlong, htake, hdrop, hcheck, hrest]

theorem exec_cellLineMessage {s : State} (h : s.blocks.cli.rx = []) (bs : List Byte) :
    exec (.cellLineMessage bs) s = .next (receiveCell (bs.length + 1) bs s) := by
  change Host.Outcome.next (cellBytes bs s) = _
  rw [cellBytes, h]
  rfl

theorem setCellRx_self {s : State} (h : s.blocks.cli.rx = []) : setCellRx [] s = s := by
  have hcli : ({ s.blocks.cli with rx := [] } : CellLineInterface) = s.blocks.cli := by rw [← h]
  simp only [setCellRx, State.mapBlocks, hcli]
  rfl

theorem reportDiscard_rx (r : DiscardReport) (b : Blocks) : (reportDiscard r b).cli.rx = b.cli.rx := by
  unfold reportDiscard
  split <;> rfl

theorem dropCellPartial_empty {s : State} (h : s.blocks.cli.rx = []) (n : Nat) : dropCellPartial n s = s := by
  cases n with
  | zero => rfl
  | succ n => rw [dropCellPartial, h]

/-- Settles O45. -/
theorem cellBytesAreRead : Obligations.CellBytesAreRead := by
  intro s type payload hlength
  refine ⟨fun hrx => ?_, fun c0 c1 hrx hcrc hsync => ?_, fun rest hrx hsync => ?_⟩
  · have hfront := cellFront_whole (type := type) (payload := payload)
      (crc := envelopeCrc (beBytes 2 (payload.length + 1) ++ type :: payload)) hlength (beBytes_length 2 _)
    rw [exec_cellLineMessage hrx]
    congr 1
    rw [receiveCell, hfront, beBytes_two]
    simp only [List.cons_append, List.nil_append, judgeCell, if_true, List.length_cons]
    rfl
  · have hfront := cellFront_whole (type := type) (payload := payload) (crc := [c0, c1]) hlength rfl
    have hbad : judgeCell (beBytes 2 (payload.length + 1) ++ type :: payload) [c0, c1]
        (beBytes 2 (payload.length + 1) ++ type :: payload ++ [c0, c1]) []
        = .bad none (beBytes 2 (payload.length + 1) ++ type :: payload ++ [c0, c1]) := by
      rw [beBytes_two] at hcrc ⊢
      exact if_neg hcrc
    rw [exec_cellLineMessage hrx, receiveCell, hfront, hbad]
    congr 1
    simp only
    rw [receiveCell_noSync _ _ _ hsync (by simp), setCellRx_self]
    · rfl
    · exact (reportDiscard_rx ..).trans hrx
  · change Host.Outcome.next (cellByteTimeout s) = _
    rw [cellByteTimeout, hrx, List.length_cons, dropCellPartial, hrx]
    simp only
    rw [receiveCell_noSync _ _ _ hsync (Nat.lt_succ_self _), dropCellPartial_empty rfl, setCellRx_self]
    · rfl
    · exact reportDiscard_rx ..

/-! ### The receiver of the Tester Line (R183) -/

theorem receiveTester_noSync (v : View) (b : Blocks) : ∀ (n : Nat) (bs : List Byte), (∀ x ∈ bs, x ≠ 0x5A) → bs.length < n →
    receiveTester v n bs b = setTesterRx [] b
  | n + 1, [], _, _ => rfl
  | n + 1, x :: bs, hsync, hlength => by
    have hx : ¬ x = testerSync := hsync x List.mem_cons_self
    rw [receiveTester]
    simp only [testerFront, if_neg hx]
    exact receiveTester_noSync v b n bs (fun y hy => hsync y (List.mem_cons_of_mem _ hy)) (by simpa using hlength)

/-- A whole message at the front, with its check bytes behind it. -/
theorem testerFront_whole {type : Byte} {payload crc : List Byte} (hlength : payload.length < 255) (hcrc : crc.length = 2) :
    testerFront (0x5A :: byte (payload.length + 1) :: type :: payload ++ crc) =
      judgeTester (byte (payload.length + 1) :: type :: payload) crc
        (byte (payload.length + 1) :: type :: payload ++ crc) [] := by
  have hlen : (byte (payload.length + 1)).toNat = payload.length + 1 := by
    simp only [byte, BitVec.toNat_ofNat]
    omega
  have hzero : ¬ byte (payload.length + 1) = 0 := fun h => by
    rw [h] at hlen
    simp at hlen
  have hlong : ¬ (type :: (payload ++ crc)).length < payload.length + 1 + 2 := by simp [hcrc]
  have htake : (type :: (payload ++ crc)).take (payload.length + 1) = type :: payload := by simp
  have hdrop : (type :: (payload ++ crc)).drop (payload.length + 1) = crc := by simp
  have hcheck : crc.take 2 = crc := List.take_of_length_le hcrc.le
  have hrest : (type :: (payload ++ crc)).drop (payload.length + 1 + 2) = [] := List.drop_eq_nil_of_le (by simp [hcrc])
  simp only [List.cons_append, testerFront, if_pos (show (0x5A : Byte) = testerSync from rfl), if_neg hzero, hlen,
    if_neg hlong, htake, hdrop, hcheck, hrest]

theorem testerBytes_fresh {v : View} {b : Blocks} (h : b.le.rx = []) (bs : List Byte) :
    testerBytes v bs b = receiveTester v (bs.length + 1) bs b := by
  rw [testerBytes, h]
  rfl

theorem setTesterRx_self {b : Blocks} (h : b.le.rx = []) : setTesterRx [] b = b := by
  have hle : ({ b.le with rx := [] } : LoadEngine) = b.le := by rw [← h]
  rw [setTesterRx, hle]

theorem dropTesterPartial_empty {v : View} {b : Blocks} (h : b.le.rx = []) (n : Nat) : dropTesterPartial v n b = b := by
  cases n with
  | zero => rfl
  | succ n => rw [dropTesterPartial, h]

/-- Settles O41. -/
theorem testerBytesAreRead : Obligations.TesterBytesAreRead := by
  intro s type payload hlength
  refine ⟨fun m hrx hm => ?_, fun c0 c1 hrx hcrc hsync => ?_, fun rest hrx hsync => ?_⟩
  · refine exec_eq (f := fun v b => testerBytes v _ b) rfl ?_
    have hfront := testerFront_whole (type := type) (payload := payload)
      (crc := envelopeCrc (byte (payload.length + 1) :: type :: payload)) hlength (beBytes_length 2 _)
    rw [testerBytes_fresh hrx, receiveTester, hfront]
    simp only [judgeTester, if_true, hm, List.length_cons, List.cons_append]
    rfl
  · refine exec_eq (f := fun v b => testerBytes v _ b) rfl ?_
    have hfront := testerFront_whole (type := type) (payload := payload) (crc := [c0, c1]) hlength rfl
    rw [testerBytes_fresh hrx, receiveTester, hfront]
    simp only [judgeTester, if_neg hcrc]
    rw [receiveTester_noSync _ _ _ _ hsync (by simp), setTesterRx_self]
    · rfl
    · exact hrx
  · refine exec_eq (f := testerByteTimeout) rfl ?_
    rw [testerByteTimeout, hrx, List.length_cons, dropTesterPartial, hrx]
    simp only
    rw [receiveTester_noSync _ _ _ _ hsync (Nat.lt_succ_self _), dropTesterPartial_empty rfl, setTesterRx_self]
    · rfl
    · rfl

end Sys2Proof.Machine
end

section
/-! Fitted and removed kits (O57), END_STEP and SITE_RESTORE (O59). -/

namespace Sys2Proof.Machine

/-- A request that acts on the blocks alone, by its answer and the blocks it leaves. -/
theorem exec_gives {c : Instr} {r : Request} {s : State} {x : Answer × Blocks} (h : s.TakesAtOnce) (hc : carried c = some r)
    (hr : handle r s.taking = ((blocksRequest s.view r s.taking.blocks).1,
      { s.taking with blocks := (blocksRequest s.view r s.taking.blocks).2 }))
    (hx : blocksRequest s.view r s.taking.blocks = x) : exec c s = .next (s.answered r.type x).finish :=
  hx ▸ exec_answered h hc hr

theorem exec_code {c : Instr} {r : Request} {s : State} {code : RespCode} (h : s.TakesAtOnce) (hc : carried c = some r)
    (hr : handle r s.taking = ((blocksRequest s.view r s.taking.blocks).1,
      { s.taking with blocks := (blocksRequest s.view r s.taking.blocks).2 }))
    (hx : blocksRequest s.view r s.taking.blocks = (answer code, s.taking.blocks)) :
    exec c s = .next (s.taking.respondCode r.type code).finish := by
  rw [exec_gives h hc hr hx, answered_code]

/-! ### Kits (R106, R107) -/

theorem kitFitted_refused {v : View} {k : Nat} {b : Blocks} (h : isWorking b.station = false ∨ kitAtHere v k = false ∨
    b.lc.inTransmission (.kitGive k) = true ∨ ∃ j, b.hr.fitted = some j ∧ j ≠ k) :
    kitFittedRequest v k b = (answer .badState, b) := by
  unfold kitFittedRequest
  cases hw : isWorking b.station
  · rfl
  cases hhere : kitAtHere v k
  · rfl
  cases htx : b.lc.inTransmission (.kitGive k)
  · obtain ⟨j, hj, hne⟩ : ∃ j, b.hr.fitted = some j ∧ j ≠ k := by simpa [hw, hhere, htx] using h
    rw [hj]
    exact if_neg hne
  · rfl

theorem kitFitted_taken {v : View} {k : Nat} {b : Blocks} (hw : isWorking b.station = true) (hhere : kitAtHere v k = true)
    (htx : b.lc.inTransmission (.kitGive k) = false) :
    kitFittedRequest v k b = match b.hr.fitted with
      | some j => if j = k then (okAnswer, clearTrip b) else (answer .badState, b)
      | none => (okAnswer, requestAfterFitting v k
          (clearTrip (withdrawFrame (.kitGive k) (dropGive k (setFitted (some k) b))))) := by
  rw [kitFittedRequest, hw, hhere, htx]
  rfl

/-- A kit request moves on once a kit is fitted: it ends with a usable one, else that kit is in the way (R105, R106). -/
theorem requestAfterFitting_eq {v : View} {k : Nat} {b : Blocks} {r : KitRequest} (h : b.hr.request = some r) :
    requestAfterFitting v k b = if (usableFitted v b.hr r.family).isSome then withdrawAll isKitTake (setRequest none b)
      else needRemoval r k b := by
  rw [requestAfterFitting, endRequest, h]

/-- The kit leaves the fitted-kit record and joins the give list (R107). -/
theorem kitRemoved_taken {v : View} {k : Nat} {b : Blocks} (hs : b.station ≠ .offline)
    (hk : b.hr.fitted = some k ∧ b.du.headInRun = false ∨ b.hr.fitted ≠ some k ∧ kitAtHere v k = true) :
    kitRemovedRequest v k b =
      (okAnswer, requestAfterRemoval v
        (if kitAtHere v k then giveBack k (if b.hr.fitted = some k then setFitted none b else b)
          else if b.hr.fitted = some k then setFitted none b else b)) := by
  unfold kitRemovedRequest
  rw [if_neg (by simpa using hs)]
  rcases hk with ⟨hf, hrun⟩ | ⟨hf, hhere⟩
  · simp [hf, hrun]
  · simp [hf, hhere]

theorem kitRemoved_absent {v : View} {k : Nat} {b : Blocks} (hs : b.station ≠ .offline) (hf : b.hr.fitted ≠ some k)
    (hhere : kitAtHere v k = false) : kitRemovedRequest v k b = (answer .notFound, b) := by
  rw [kitRemovedRequest, if_neg (by simpa using hs), if_pos (by simp [hf, hhere])]

theorem kitRemoved_running {v : View} {k : Nat} {b : Blocks} (hs : b.station ≠ .offline) (hf : b.hr.fitted = some k)
    (hrun : b.du.headInRun = true) : kitRemovedRequest v k b = (answer .stepRunning, b) := by
  rw [kitRemovedRequest, if_neg (by simpa using hs), if_neg (by simp [hf]), if_pos (by simp [hf, hrun])]

theorem requestAfterRemoval_chooses {v : View} {b : Blocks} {r : KitRequest} (hr : b.hr.request = some r)
    (hphase : r.phase = .removal) (hf : b.hr.fitted = none) : requestAfterRemoval v b = chooseKit v r b := by
  rw [requestAfterRemoval, hr]
  exact if_pos (by simp [hphase, hf])

theorem requestAfterRemoval_keeps {v : View} {b : Blocks}
    (h : ∀ r, b.hr.request = some r → r.phase = .removal → b.hr.fitted ≠ none) : requestAfterRemoval v b = b := by
  unfold requestAfterRemoval
  cases hr : b.hr.request with
  | none => rfl
  | some r =>
    refine if_neg fun hc => ?_
    obtain ⟨hphase, hf⟩ := Bool.and_eq_true_iff.mp hc
    exact h r hr (eq_of_beq hphase) (Option.isNone_iff_eq_none.mp hf)

/-- The give list and its KIT GIVE, as the statement writes them. -/
theorem giveBack_eq (u : State) (k : Nat) : { u with blocks := giveBack k u.blocks } = u.withGive k := by
  unfold giveBack State.withGive enqueueGive
  cases u.blocks.hr.gives.contains k
  · cases hs : u.blocks.lc.standing (· == .kitGive k)
    · cases ha : acceptsFrames u.blocks.station <;> simp [ha, offer, internal, allStations]
    · simp
  · rfl

theorem exec_kitFitted {s : State} {k : Nat} {x : Answer × Blocks} (h : s.TakesAtOnce)
    (hx : kitFittedRequest s.view k s.taking.blocks = x) : exec (.kitFitted k) s = .next (s.answered 26 x).finish :=
  exec_gives (r := .kitFitted k) h rfl rfl hx

theorem exec_kitRemoved {s : State} {k : Nat} {x : Answer × Blocks} (h : s.TakesAtOnce)
    (hx : kitRemovedRequest s.view k s.taking.blocks = x) : exec (.kitRemoved k) s = .next (s.answered 27 x).finish :=
  exec_gives (r := .kitRemoved k) h rfl rfl hx

/-- A kit fitted where none was: the request moves on over the new record. -/
theorem exec_kitFitted_new {s : State} {k : Nat} (h : s.TakesAtOnce) (hw : isWorking s.blocks.station = true)
    (hhere : kitAtHere s.view k = true) (htx : s.blocks.lc.inTransmission (.kitGive k) = false)
    (hf : s.blocks.hr.fitted = none) :
    exec (.kitFitted k) s =
      .next (s.answered 26 (okAnswer, requestAfterFitting s.view k (s.taking.withFitted k).blocks)).finish := by
  refine exec_kitFitted h ((kitFitted_taken (b := s.taking.blocks) hw hhere htx).trans ?_)
  rw [taking_hr, hf]
  rfl

/-- Settles O57. -/
theorem fittedKitIsRecorded : Obligations.FittedKitIsRecorded := by
  intro s k h
  refine ⟨fun hr => exec_code (r := .kitFitted k) h rfl rfl (kitFitted_refused (b := s.taking.blocks) hr),
    fun hw hhere htx hf => ?_,
    fun hw hhere htx hf => ⟨fun hr => ?_, fun r hr => ⟨fun hu => ?_, fun hu => ?_⟩⟩,
    fun hs => exec_code (r := .kitRemoved k) h rfl rfl (if_pos (by rw [taking_station, hs]; rfl)),
    fun hs hf hhere => exec_code (r := .kitRemoved k) h rfl rfl (kitRemoved_absent (b := s.taking.blocks) hs hf hhere),
    fun hs hf hrun => exec_code (r := .kitRemoved k) h rfl rfl (kitRemoved_running (b := s.taking.blocks) hs hf hrun),
    fun u w hs hu hw => ?_⟩
  · have htaken : kitFittedRequest s.view k s.taking.blocks = (okAnswer, clearTrip s.taking.blocks) := by
      rw [kitFitted_taken (b := s.taking.blocks) hw hhere htx, taking_hr, hf]
      exact if_pos rfl
    rw [exec_kitFitted h htaken]
    rfl
  · have hnone : (s.taking.withFitted k).blocks.hr.request = none := hr
    rw [exec_kitFitted_new h hw hhere htx hf, requestAfterFitting, hnone]
    rfl
  · rw [exec_kitFitted_new h hw hhere htx hf, requestAfterFitting_eq (b := (s.taking.withFitted k).blocks) hr,
      if_pos (by exact hu)]
    rfl
  · rw [exec_kitFitted_new h hw hhere htx hf, requestAfterFitting_eq (b := (s.taking.withFitted k).blocks) hr,
      if_neg (by rw [Bool.not_eq_true]; exact hu)]
    rfl
  · have hblocks : w.blocks = (if kitAtHere s.view k then
        giveBack k (if s.blocks.hr.fitted = some k then setFitted none s.taking.blocks else s.taking.blocks)
        else if s.blocks.hr.fitted = some k then setFitted none s.taking.blocks else s.taking.blocks) := by
      have hfront : u.blocks = if s.blocks.hr.fitted = some k then setFitted none s.taking.blocks else s.taking.blocks := by
        rcases hu with ⟨hf, -, rfl⟩ | ⟨hf, -, rfl⟩
        · rw [if_pos hf]
          rfl
        · rw [if_neg hf]
      rw [hw, ← hfront, apply_ite State.blocks, ← giveBack_eq]
    have hother : w = { s.taking with blocks := w.blocks } := by
      rw [hw]
      rcases hu with ⟨-, -, rfl⟩ | ⟨-, -, rfl⟩ <;> unfold State.withGive <;> split_ifs <;> rfl
    have hrequest : w.blocks.hr.request = s.blocks.hr.request := by
      rw [hw]
      rcases hu with ⟨-, -, rfl⟩ | ⟨-, -, rfl⟩ <;> unfold State.withGive <;> split_ifs <;> rfl
    have hremoved : exec (.kitRemoved k) s = .next (s.answered 27 (okAnswer, requestAfterRemoval s.view w.blocks)).finish := by
      refine exec_kitRemoved h ((kitRemoved_taken (b := s.taking.blocks) hs ?_).trans ?_)
      · exact hu.imp (fun hu => ⟨hu.1, hu.2.1⟩) fun hu => ⟨hu.1, hu.2.1⟩
      · rw [hblocks]
        rfl
    refine ⟨fun hkeep => ?_, fun r hr hphase hf => ?_⟩
    · rw [hremoved, requestAfterRemoval_keeps (by rwa [hrequest]), hother]
      rfl
    · rw [hremoved, requestAfterRemoval_chooses (hrequest.trans hr) hphase hf, hother]
      rfl

/-! ### END_STEP (R144, R146) -/

theorem endStep_absent {v : View} {lot k : Nat} {b : Blocks} (hw : isWorking b.station = true)
    (h : ∀ e q, b.du.queue = e :: q → ¬(e.lot = lot ∧ e.step = k ∧ e.phase = .running)) :
    endStepRequest v lot k b = (answer .notFound, b) := by
  rw [endStepRequest, hw, Bool.not_true, if_neg Bool.false_ne_true]
  cases hq : b.du.queue with
  | nil => rfl
  | cons e q =>
    refine if_neg fun hc => h e q hq ?_
    obtain ⟨hlk, hphase⟩ := Bool.and_eq_true_iff.mp hc
    obtain ⟨hlot, hk⟩ := Bool.and_eq_true_iff.mp hlk
    exact ⟨eq_of_beq hlot, eq_of_beq hk, eq_of_beq hphase⟩

/-- END_STEP for the head in run: pending in IN TEST, else the step ends. -/
theorem endStep_head {v : View} {b : Blocks} {h : QueueEntry} {q : List QueueEntry} (hw : isWorking b.station = true)
    (hq : b.du.queue = h :: q) (hphase : h.phase = .running) :
    endStepRequest v h.lot h.step b = (okAnswer,
      if b.iw.inTest then setCounters { b.iw.counters with endPending := true } b
      else endStep v h.lot (dropMask (setCounters { b.iw.counters with endPending := true } b))) := by
  rw [endStepRequest, hw, hq]
  simp only [hphase, beq_self_eq_true, Bool.and_self, if_true, Bool.not_true, Bool.false_eq_true, if_false]
  split_ifs <;> rfl

/-- No recorded mask is left in WAITING GATE and IDLE (R146). -/
theorem dropMask_idle {b : Blocks} (h : b.iw.insertion = .idle ∨ ∃ m, b.iw.insertion = .waitingGate m) :
    dropMask b = setIw { b.iw with insertion := .idle } b := by
  unfold dropMask
  obtain h | ⟨m, h⟩ := h
  · rw [h]
    change b = { b with iw := { b.iw with insertion := .idle } }
    rw [← h]
  · rw [h]

theorem inTest_of_not {b : Blocks} (h : b.iw.insertion = .idle ∨ ∃ m, b.iw.insertion = .waitingGate m) :
    b.iw.inTest = false := by
  unfold InsertionWatch.inTest
  obtain h | ⟨m, h⟩ := h <;> rw [h]

/-- The STEP TALLY enqueued by a station that accepts frames (R52, R144). -/
theorem enqueueTally_accepts {v : View} {lot : Nat} {b : Blocks} (h : acceptsFrames b.station = true) :
    enqueueTally v lot b =
      if b.iw.counters.entered = b.iw.counters.pass + b.iw.counters.fail + b.iw.counters.lost then
        offer (buildTally v b.iw.counters lot) allStations .iw false b
      else b := by
  unfold enqueueTally StepCounters.balanced
  rw [h]
  by_cases hb : b.iw.counters.entered = b.iw.counters.pass + b.iw.counters.fail + b.iw.counters.lost
  · rw [if_pos hb, if_neg (by simpa using hb), if_pos rfl]
  · rw [if_neg hb, if_pos (by simpa using hb)]

theorem tallyKit_running {v : View} {c : StepCounters} {lot n kit e : Nat} {x : StepRec}
    (hx : v.rep.step? lot c.step = some x) (hst : x.state = .running n kit e) : tallyKit v c lot = kit := by
  rw [tallyKit, hx]
  simp only [hst]
  rfl

/-! ### SITE_RESTORE (R141) -/

theorem restoreSite_masked {b : Blocks} {n : Nat} (h : (b.iw.site n).state = .masked) :
    restoreSite n b = if (b.iw.site n).masks < 3 then setSite n { b.iw.site n with state := .enabled, fails := 0 } b
      else raise (.siteRetired n) (setSite n { b.iw.site n with state := .retired } b) := by
  unfold restoreSite
  simp only [h, beq_self_eq_true, if_true]

theorem restoreSite_other {b : Blocks} {n : Nat} (h : (b.iw.site n).state ≠ .masked) : restoreSite n b = b :=
  if_neg (by simpa using h)

theorem siteRestore_inRange {v : View} {b : Blocks} {n : Nat} (h1 : 1 ≤ n) (h8 : n ≤ 8) (hn : n ≤ v.cfg.siteCount) :
    siteRestoreRequest v n b = (okAnswer, restoreSite n b) :=
  if_neg (by simp; omega)

theorem exec_endStep {s : State} {lot k : Nat} {x : Answer × Blocks} (h : s.TakesAtOnce)
    (hx : endStepRequest s.view lot k s.taking.blocks = x) : exec (.endStep lot k) s = .next (s.answered 30 x).finish :=
  exec_gives (r := .endStep lot k) h rfl rfl hx

theorem exec_siteRestore {s : State} {n : Nat} (h : s.TakesAtOnce) (h1 : 1 ≤ n) (h8 : n ≤ 8) (hn : n ≤ s.config.siteCount) :
    exec (.siteRestore n) s = .next (s.answered 31 (okAnswer, restoreSite n s.taking.blocks)).finish :=
  exec_gives (r := .siteRestore n) h rfl rfl (siteRestore_inRange (v := s.view) h1 h8 hn)

/-- Settles O59. -/
theorem endStepAndSiteRestoreAreTaken : Obligations.EndStepAndSiteRestoreAreTaken := by
  refine ⟨fun s lot k h => ⟨fun hw => ?_, fun hw hno => ?_, fun e q hw hq hlot hk hphase => ⟨fun m n hin => ?_, ?_⟩⟩,
    fun s n h => ⟨fun hn => ?_, fun h1 h8 hn => ⟨fun hm hle => ?_, fun hm hle => ?_, fun hm => ?_⟩⟩⟩
  · exact exec_code (r := .endStep lot k) h rfl rfl (if_pos (by rw [taking_station, hw]; rfl))
  · exact exec_code (r := .endStep lot k) h rfl rfl (endStep_absent (b := s.taking.blocks) hw hno)
  · subst hlot hk
    rw [exec_endStep h (endStep_head (b := s.taking.blocks) hw hq hphase), if_pos (by rw [InsertionWatch.inTest, taking_iw, hin])]
    rfl
  · subst hlot hk
    intro c x kit m lost u hins hc hstep hx hst hlost hu
    have hend : exec (.endStep e.lot e.step) s =
        .next (s.answered 30 (okAnswer, enqueueTally s.view e.lot u.blocks)).finish := by
      rw [exec_endStep h (endStep_head (b := s.taking.blocks) hw hq hphase),
        if_neg (by
          rw [inTest_of_not (b := s.taking.blocks) hins]; exact Bool.false_ne_true),
        dropMask_idle (b := setCounters { s.taking.blocks.iw.counters with endPending := true } s.taking.blocks) hins]
      subst hu hlost hc
      rw [← hstep]
      rfl
    rw [hend, enqueueTally_accepts (by rw [hu]; exact accepts_of_working hw)]
    refine ⟨fun hbal => ?_, fun hbal => ?_⟩
    · have hkit : tallyKit s.view u.blocks.iw.counters e.lot = kit := by
        rw [hu]
        exact tallyKit_running (e := m) (by rw [← hx, ← hstep]; rfl) hst
      rw [if_pos (by rw [hu]; exact hbal), offer, if_pos (by rw [hu]; exact accepts_of_working hw), buildTally, hkit, hu]
      simp only [State.withIw, hstep]
      rfl
    · rw [if_neg (by rw [hu]; exact hbal), hu]
      rfl
  · exact exec_gives (r := .siteRestore n) (x := (badField 1, s.taking.blocks)) h rfl rfl (if_pos (by
      rcases hn with rfl | hn | hn
      · rfl
      · simp [hn]
      · exact Bool.or_eq_true_iff.mpr (Or.inr (decide_eq_true hn))))
  · rw [exec_siteRestore h h1 h8 hn, restoreSite_masked (b := s.taking.blocks) hm,
      if_pos (c := (s.taking.blocks.iw.site n).masks < 3) (Nat.lt_succ_of_le hle)]
    rfl
  · rw [exec_siteRestore h h1 h8 hn, restoreSite_masked (b := s.taking.blocks) hm,
      if_neg (c := (s.taking.blocks.iw.site n).masks < 3) (Nat.not_lt.mpr hle)]
    rfl
  · rw [exec_siteRestore h h1 h8 hn, restoreSite_other (b := s.taking.blocks) hm]
    rfl

end Sys2Proof.Machine
end

section
/-! RELEASE_CONFIRM (O54), JOIN and REJOIN (O50). -/

namespace Sys2Proof.Machine

theorem Evolves.resp {b c : Blocks} (h : Evolves b c) : c.cli.resp = b.cli.resp := by
  have k := congrArg (fun x : Blocks => x.cli.resp) h.core
  exact k

/-! ### RELEASE_CONFIRM (R167) -/

theorem confirmLot_complete {l : LotRec} (h : l.complete = true) :
    confirmLot l = { l with confirmed := l.holdHistory || l.confirmed } := by
  unfold confirmLot LotRec.confirmPresent
  rw [h, Bool.true_and]
  cases hh : l.holdHistory
  · have hsame : (l.holdHistory || l.confirmed) = l.confirmed := by rw [hh, Bool.false_or]
    rw [← hh, hsame, if_neg (by simp [hh])]
  · rw [if_pos rfl, Bool.true_or, ← hh]

theorem confirmLot_lot (l : LotRec) : (confirmLot l).lot = l.lot := by
  unfold confirmLot
  split <;> rfl

theorem exec_releaseConfirm {s : State} {lot : Nat} {a : Answer} {t : State} (h : s.TakesAtOnce)
    (ha : releaseConfirmRequest lot s.taking = (a, t)) :
    exec (.releaseConfirm lot) s = .next (State.respond t 19 a.code a.index a.content).finish := by
  rw [exec_request (r := .releaseConfirm lot) rfl, request_taken s _ h]
  change Host.Outcome.next (State.finish (State.respond (releaseConfirmRequest lot s.taking).2 19
    (releaseConfirmRequest lot s.taking).1.code (releaseConfirmRequest lot s.taking).1.index
    (releaseConfirmRequest lot s.taking).1.content)) = _
  rw [ha]

/-- The state of an accepted RELEASE_CONFIRM, before the check of the lot. -/
def State.confirming (s : State) (lot : Nat) : State :=
  { s.taking with re := { s.re with replica := s.re.replica.updateLot lot confirmLot } }

/-- RELEASE_CONFIRM of a lot of the replica, by its tests. -/
theorem releaseConfirm_present {s : State} {lot : Nat} {l : LotRec} (hl : s.re.replica.lot? lot = some l) :
    releaseConfirmRequest lot s.taking =
      if l.complete = false then (answer .notComplete, s.taking)
      else if l.releaseOwner ≠ some s.stationId then (answer .notOwner, s.taking)
      else (okAnswer, (s.confirming lot).mapBlocks fun v b => releaseCheck v lot b) := by
  unfold releaseConfirmRequest
  change (match s.re.replica.lot? lot with | none => _ | some l => _) = _
  rw [hl]
  refine if_congr (by simp) rfl (if_congr ?_ rfl rfl)
  rw [bne_iff_ne]
  rfl

theorem releaseCheck_leaving {v : View} {lot : Nat} {b : Blocks} (h : b.du.leaving = false) :
    (releaseCheck v lot b).du.leaving = false := by
  unfold releaseCheck
  split
  · have hprune := (pruneReleases_attends v b.du.releases b).leaving h
    dsimp only
    split
    · split
      · exact (checkOwned_attends v _ _).leaving hprune
      · exact hprune
    · exact hprune
  · exact h

/-- Settles O54. -/
theorem releaseConfirmMarksTheLot : Obligations.ReleaseConfirmMarksTheLot := by
  intro s lot h hleaving
  refine ⟨fun hnone => ?_, fun l hl => ⟨fun hc => ?_, fun hc ho => ?_, fun hc ho => ?_⟩⟩
  · refine exec_releaseConfirm (a := answer .notFound) h ?_
    unfold releaseConfirmRequest
    change (match s.re.replica.lot? lot with | none => _ | some l => _) = _
    rw [hnone]
  · exact exec_releaseConfirm (a := answer .notComplete) h ((releaseConfirm_present hl).trans (if_pos hc))
  · refine exec_releaseConfirm (a := answer .notOwner) h ((releaseConfirm_present hl).trans ?_)
    rw [if_neg (by simp [hc]), if_pos ho]
  · have haccepted := (releaseConfirm_present hl).trans
      ((if_neg (by simp [hc])).trans (if_neg (not_not_intro ho)))
    have hlots := updateLot_lot? s.re.replica lot (f := confirmLot) (hf := confirmLot_lot)
    refine ⟨_, exec_releaseConfirm h haccepted, ?_, rfl, rfl, rfl, rfl, rfl, ?_, fun n hn => ?_⟩
    · exact (State.finish_evolves _ (releaseCheck_leaving (b := s.taking.blocks) hleaving)).resp
    · exact (hlots lot).trans (by rw [hl, Option.map_some, if_pos rfl, confirmLot_complete hc])
    · exact (hlots n).trans (by simp only [if_neg hn, Option.map_id'])

/-! ### JOIN and REJOIN (R21, R35) -/

theorem candidates_congr {b c : Blocks} (h : c.pu.peers = b.pu.peers) : candidates c = candidates b := by
  unfold candidates
  rw [h]

theorem chooseReference_congr {b c : Blocks} (h : c.pu.peers = b.pu.peers) : chooseReference c = chooseReference b := by
  unfold chooseReference
  rw [candidates_congr h]

/-- A station that is no member enters LISTENING (R21). -/
theorem listen_aside {v : View} {b : Blocks} (h : isMember b.station = false) : Aside
    (inState v .listening
      { b with pu := { b.pu with listenTimer := some Config.listenMs, listenWait := false, conflictRaised := false } })
    (listen v b) :=
  (enterState_reoffers v (b := { b with pu := { b.pu with
    listenTimer := some Config.listenMs, listenWait := false, conflictRaised := false } })
    (by rw [show isMember _ = false from h]; rfl)).toAside

theorem listen_attends (v : View) (b : Blocks) : Attends
    { b with pu := { b.pu with listenTimer := some Config.listenMs, listenWait := false, conflictRaised := false } }
    (listen v b) := enterState_attends v .listening _

/-- A request that leaves no LEAVE sequence in progress has been acted upon, and the evaluations follow. -/
theorem exec_answered_evolves {c : Instr} {s : State} {type : Nat} {x : Answer × Blocks}
    (h : exec c s = .next (s.answered type x).finish) (hl : x.2.du.leaving = false) :
    ∃ t, exec c s = .next t ∧ t.re = s.re ∧ Aside x.2 t.blocks ∧ Attends x.2 t.blocks ∧
      t.blocks.cli.resp = some ⟨type, x.1.code, x.1.index, x.1.content⟩ := by
  have hevolves := State.finish_evolves (s.answered type x) hl
  have hanswered : Attends x.2 (s.answered type x).blocks := ⟨rfl, rfl, rfl, fun _ hn => hn, id⟩
  exact ⟨_, h, rfl, Aside.trans (b := (s.answered type x).blocks) ⟨rfl, rfl⟩ hevolves.aside,
    hanswered.trans hevolves.attends, hevolves.resp⟩

/-- What JOIN and REJOIN have in common. -/
theorem exec_listens {c : Instr} {s : State} {type : Nat} (hleaving : s.blocks.du.leaving = false)
    (hmember : isMember s.blocks.station = false)
    (h : exec c s = .next (s.answered type (okAnswer, listen s.view s.taking.blocks)).finish) :
    ∃ t, exec c s = .next t ∧ t.blocks.station = .listening ∧ t.blocks.pu.listenTimer = some 2500 ∧
      t.blocks.pu.beaconTimer = some s.config.beaconInterval ∧ t.blocks.pu.conflictRaised = false ∧
      t.re = s.re ∧ t.blocks.cli.resp = some ⟨type, .ok, 0, .none⟩ := by
  have hattends := listen_attends s.view s.taking.blocks
  obtain ⟨t, ht, hre, hafter, hlater, hresp⟩ := exec_answered_evolves h (hattends.leaving hleaving)
  have haside := (listen_aside (b := s.taking.blocks) hmember).trans hafter
  exact ⟨t, ht, haside.station, haside.listenTimer, haside.beaconTimer,
    hlater.conflict.trans hattends.conflict, hre, hresp⟩

theorem rejoin_isolated {v : View} {b : Blocks} {ref : Nat} (hs : b.station = .isolated) (hl : b.du.leaving = false)
    (href : chooseReference b = some ref) : ∃ c : Blocks, Aside
      (inState v .joining { b with pu := { b.pu with conflictRaised := false } }) c ∧ c.du.leaving = false ∧
      rejoinRequest v b = (okAnswer, enqueueReq ref { c with
        cu := { ({ c.cu with attempts := 0 } : CatchUpUnit).begun with phase := .requesting, reference := some ref } }) := by
  have henter := enterState_reoffers v (new := .joining) (b := { b with pu := { b.pu with conflictRaised := false } })
    (by rw [show isMember _ = false from by rw [show Blocks.station _ = StationState.isolated from hs]; rfl]; rfl)
  have hleaving := (enterState_attends v .joining { b with pu := { b.pu with conflictRaised := false } }).leaving hl
  refine ⟨_, henter.toAside, hleaving, ?_⟩
  have hreference : chooseReference { enterState v .joining { b with pu := { b.pu with conflictRaised := false } } with
      cu := { (enterState v .joining { b with pu := { b.pu with conflictRaised := false } }).cu with attempts := 0 } }
      = some ref := (chooseReference_congr henter.toAside.peers).trans href
  rw [rejoinRequest, hs]
  simp only
  rw [abandonLeave, if_neg (by rw [hleaving]; exact Bool.false_ne_true), startCatchUp, beginAttempt_asks hreference]

/-- Settles O50. -/
theorem joinAndRejoin : Obligations.JoinAndRejoin := by
  intro s h hleaving
  refine ⟨fun hs => ?_, fun hs hid => ?_, fun c hc => ?_, fun ref hs href => ?_, fun hi hf => ?_⟩
  · exact exec_code (r := .join) h rfl rfl (if_pos (bne_iff_ne.mpr hs))
  · refine exec_code (r := .join) h rfl rfl ((if_neg ?_).trans (if_pos ?_))
    · rw [taking_station, hs]
      decide
    · change (decide (s.stationId = 0) || decide (s.stationId = 63)) = true
      simpa using hid
  · rcases hc with ⟨rfl, hs, h0, h63⟩ | ⟨rfl, hs⟩
    · refine exec_listens (type := 2) hleaving (by rw [hs]; rfl) (exec_gives (r := .join) h rfl rfl ?_)
      refine (if_neg ?_).trans (if_neg ?_)
      · rw [taking_station, hs]
        decide
      · change ¬(decide (s.stationId = 0) || decide (s.stationId = 63)) = true
        simpa using ⟨h0, h63⟩
    · refine exec_listens (type := 4) hleaving (by rw [hs]; rfl) (exec_gives (r := .rejoin) h rfl rfl ?_)
      change rejoinRequest s.view s.taking.blocks = _
      rw [rejoinRequest, taking_station, hs]
  · obtain ⟨d, haside, hd, hrejoin⟩ := rejoin_isolated (v := s.view) (b := s.taking.blocks) hs hleaving href
    have hoffer := offer_reoffers .catchReq ref .cu false { d with
      cu := { ({ d.cu with attempts := 0 } : CatchUpUnit).begun with phase := .requesting, reference := some ref } }
    obtain ⟨t, ht, hre, hlater, -, hresp⟩ := exec_answered_evolves
      (exec_gives (c := .rejoin) (r := .rejoin) h rfl rfl hrejoin)
      ((offer_attends ..).leaving hd)
    have hafter : Aside { d with
        cu := { ({ d.cu with attempts := 0 } : CatchUpUnit).begun with phase := .requesting, reference := some ref } }
        t.blocks := hoffer.toAside.trans hlater
    refine ⟨t, ht, hafter.station.trans haside.station, ?_, ?_, ?_, hre, hresp⟩
    · rw [hafter.cu]
    · rw [hafter.cu]
    · rw [hafter.cu]
      rfl
  · refine exec_code (r := .rejoin) h rfl rfl ?_
    change rejoinRequest s.view s.taking.blocks = _
    rw [rejoinRequest]
    split
    · next hfaulted => exact absurd hfaulted hf
    · next hisolated => exact absurd hisolated hi
    · rfl

end Sys2Proof.Machine
end

section
/-! Requests that wait (O46), and the request that wakes a PARKED station (O47). -/

namespace Sys2Proof.Machine

/-! ### The Send Queue at a change of station state -/

theorem autoHold_link (v : View) (t : HoldTarget) (l : Level) (r : Reason) (b : Blocks) : LinkWork b (autoHold v t l r b) := by
  have hpending : LinkWork b (keepPending ⟨t, l, r⟩ b) := by
    unfold keepPending
    split <;> exact .of_eq rfl rfl rfl
  have hserial : LinkWork b { b with cli := { b.cli with serial := nextSerial v b + 1 } } := .of_eq rfl rfl rfl
  exact .ite hpending (.ite (.refl b) (.ite (raise_link _ b) (hserial.trans (offer_link _ _ _ _ _))))

theorem retryHolds_link (v : View) : ∀ (ps : List PendingHold) (b : Blocks), LinkWork b (retryHolds v ps b) :=
  .foldOver (fun _ => rfl) (fun _ _ _ => rfl) fun _ b => autoHold_link v _ _ _ b

/-- What is offered again before the pending holds (R104, R107, R144). -/
theorem reoffer_link (b : Blocks) : LinkWork b (reofferTally (reofferTake (enqueueGives b.hr.gives b))) := by
  have hgives : ∀ (ks : List Nat) (c : Blocks), LinkWork c (enqueueGives ks c) :=
    .foldOver (fun _ => rfl) (fun _ _ _ => rfl) fun _ c => .ite (.refl c) (offer_link ..)
  have htake : ∀ c, LinkWork c (reofferTake c) := fun c => by
    unfold reofferTake
    split
    · split
      · exact .ite (.refl c) (offer_link ..)
      · exact .refl c
    · exact .refl c
  have htally : ∀ c, LinkWork c (reofferTally c) := fun c => by
    unfold reofferTally
    split
    · exact LinkWork.trans (b := { c with iw := { c.iw with tallyOwed := none } }) (.of_eq rfl rfl rfl) (offer_link ..)
    · exact .refl c
  exact (hgives _ b).trans ((htake _).trans (htally _))

theorem reofferOwed_link (v : View) (b : Blocks) : LinkWork b (reofferOwed v b) := by
  have hholds : ∀ c, LinkWork c (retryPendingHolds v c) := fun c =>
    LinkWork.trans (b := { c with iw := { c.iw with pendingHolds := [] }, du := { c.du with pendingHolds := [] } })
      (.of_eq rfl rfl rfl) (retryHolds_link v _ _)
  exact (reoffer_link b).trans (hholds _)

theorem endSession_link (b : Blocks) : LinkWork b (endSession b) := by
  have hsnap : ∀ x : FrameBody, x.isHold = true → isSnap x = false := fun x hx => by
    cases x <;> first | rfl | cases hx
  unfold endSession
  split
  · exact LinkWork.trans (b := { b with cu := { b.cu with session := none, copy := .empty } })
      (.of_eq rfl rfl rfl) (withdrawAll_link _ hsnap _)
  · exact .refl b

theorem leaveMembership_link (b : Blocks) : LinkWork b (leaveMembership b) := by
  have hbid : ∀ x : FrameBody, x.isHold = true → x.isBid = false := fun x hx => by
    cases x <;> first | rfl | cases hx
  have htimers : LinkWork b { b with du := { b.du with timers := [] } } := .of_eq rfl rfl rfl
  exact (htimers.trans (withdrawAll_link _ hbid _)).trans (endSession_link _)

theorem enterState_link (v : View) (new : StationState) (b : Blocks) : LinkWork (inState v new b) (enterState v new b) := by
  have hbeacon : LinkWork (inState v new b) (if beacons new then offerBeacon (inState v new b) else inState v new b) :=
    .ite (offer_link ..) (.refl _)
  have hmember : ∀ c, LinkWork c (if isMember b.station && !isMember new then leaveMembership c else c) := fun c =>
    .ite (leaveMembership_link c) (.refl c)
  have hreleases : ∀ c, LinkWork c (if isWorking new then c else { c with du := { c.du with releases := [] } }) := fun c =>
    .ite (.refl c) (.of_eq rfl rfl rfl)
  have howed : ∀ c, LinkWork c (if acceptsFrames new then reofferOwed v c else c) := fun c =>
    .ite (reofferOwed_link v c) (.refl c)
  exact (((hbeacon.trans (hmember _)).trans (hreleases _)).trans (howed _)).trans (markDue_link _)

theorem orphanCheck_link (v : View) (b : Blocks) : LinkWork b (orphanCheck v b) := by
  have heach : ∀ (ps : List PeerRec) (c : Blocks), LinkWork c (orphanEach v ps c) :=
    .foldOver (fun _ => rfl) (fun _ _ _ => rfl) fun _ c => .ite (offer_link _ _ _ _ c) (.refl c)
  exact .ite (heach _ b) (.refl b)

theorem reconcile_link (v : View) (a : Bool) (b : Blocks) : LinkWork b (reconcile v a b) := by
  have hlost : ∀ (e : QueueEntry) (c : ClaimLostCause) (d : Blocks), LinkWork d (reportLost e c d) := fun e c d =>
    .ite (raise_link _ d) (.ite (.of_eq rfl rfl rfl) (raise_link _ d))
  have hremove : ∀ (e : QueueEntry) (c : Blocks), LinkWork c (removeEntry v a e c) := fun e c => by
    have hhalt : ∀ d : Blocks, LinkWork d (if beforeRun e.phase then d else haltStep d) := fun d =>
      .ite (.refl d) (.of_eq rfl rfl rfl)
    have hdrop : LinkWork c (markDue
        { c with du := { c.du with queue := c.du.queue.filter fun x => !(x.lot == e.lot && x.step == e.step) } }) :=
      .of_eq rfl rfl rfl
    have hfront := ((hdrop.trans (withdrawAll_link _ (isStartOf_hold e.lot e.step) _)).trans
      (withdrawFrame_link (.cede e.lot e.step) rfl _)).trans (hhalt _)
    unfold removeEntry
    simp only
    split
    · exact hfront.trans (hlost e _ _)
    · exact hfront
  have hall : ∀ (es : List QueueEntry) (c : Blocks), LinkWork c (removeLost v a es c) :=
    .foldOver (fun _ => rfl) (fun _ _ _ => rfl) fun e c => .ite (.refl c) (hremove e c)
  exact (hall _ b).trans (upkeepRequest_link _)

/-! ### Waking (R33, R173) -/

/-- A PARKED station that is woken is ACTIVE, and its evaluations are made. -/
theorem woken_link (v : View) {b : Blocks} (h : b.station = .parked) :
    LinkWork (inState v .active b) (settle v (unpark v b)) := by
  have hparked : unpark v b = reconcile v false (orphanCheck v (enterState v .active b)) := if_pos (by rw [h]; rfl)
  rw [hparked]
  exact (((enterState_link v .active b).trans (orphanCheck_link v _)).trans (reconcile_link v false _)).trans (settle_link v _)

theorem takeRequest_of_not {s : State} (h : canTake s.blocks.cli = false) : takeRequest s = s := by
  unfold takeRequest
  split
  · exact if_neg (by rw [h]; exact Bool.false_ne_true)
  · rfl

/-- The state the oldest request is acted upon in (R32, R33, R173). -/
def State.woken (s : State) (rest : List Request) : State :=
  { s with blocks := wake s.view (setCli { s.blocks.cli with fifo := rest } s.blocks) }

theorem takeRequest_taken {s : State} {r : Request} {rest : List Request} {a : Answer} {w : State}
    (hfifo : s.blocks.cli.fifo = r :: rest) (hcan : canTake s.blocks.cli = true) (hw : handle r (s.woken rest) = (a, w)) :
    takeRequest s = w.respond r.type a.code a.index a.content := by
  unfold takeRequest
  rw [hfifo]
  simp only
  rw [if_pos hcan]
  change (State.respond (handle r (s.woken rest)).2 r.type (handle r (s.woken rest)).1.code
    (handle r (s.woken rest)).1.index (handle r (s.woken rest)).1.content) = _
  rw [hw]

/-- A request that can be taken at once is acted upon in the state its taking leaves (R173). -/
theorem request_wakes {s : State} {r : Request} (hfifo : s.blocks.cli.fifo = []) (hresp : s.blocks.cli.resp = none)
    (hawaited : s.blocks.cli.resetAwaited = false) {b : Blocks} (hb : wake s.view s.blocks = b) {a : Answer} {w : State}
    (hw : handle r { s with blocks := b } = (a, w)) : request r s = (w.respond r.type a.code a.index a.content).finish := by
  have hoffered : (s.mapBlocks fun _ b => offerRequest r b).blocks = setCli { s.blocks.cli with fifo := [r] } s.blocks :=
    offerRequest_empty r s.blocks hfifo
  have hwoken : (s.mapBlocks fun _ b => offerRequest r b).woken [] = { s with blocks := b } := by
    unfold State.woken
    rw [hoffered, setCli_cli, setCli_setCli, cli_fifo_self _ hfifo, setCli_self]
    exact congrArg (fun c : Blocks => ({ s with blocks := c } : State)) hb
  unfold request
  rw [takeRequest_taken (rest := []) (r := r) (by rw [hoffered, setCli_cli])
    (by rw [hoffered]; simp [canTake, setCli, hresp, hawaited])
    (hwoken.symm ▸ hw)]

/-- Settles O47. -/
theorem requestWakesTheStation : Obligations.RequestWakesTheStation := by
  intro s c r hc hfifo hresp hawaited hparked hpark
  have hlink := woken_link s.view hparked
  have htaken : (settle s.view (unpark s.view s.blocks)).taken = s.blocks.taken := hlink.taken
  have hwake : wake s.view s.blocks = settle s.view (unpark s.view s.blocks) := if_pos (by rw [hparked]; rfl)
  generalize hb : settle s.view (unpark s.view s.blocks) = b at *
  have hpu : b.pu.parkTimer = none := (congrArg PresenceUnit.parkTimer hlink.pu).trans hpark
  have hactive : b.station = .active := hlink.station
  obtain ⟨hf, hr, ha⟩ : b.cli.fifo = s.blocks.cli.fifo ∧ b.cli.resp = s.blocks.cli.resp ∧
      b.cli.resetAwaited = s.blocks.cli.resetAwaited := by
    simpa [Blocks.taken] using htaken
  refine ⟨hactive, ?_⟩
  have hawake : wake s.view b = b := by
    have hstopped : b.pu.parkTimer.map (fun _ => parkMs s.view) = b.pu.parkTimer := by rw [hpu]; rfl
    rw [wake_awake _ _ (by rw [hactive]; decide), hstopped]
  rw [exec_request hc, exec_request hc, request_wakes hfifo hresp hawaited hwake rfl,
    request_wakes (s := { s with blocks := b }) (hf.trans hfifo) (hr.trans hresp) (ha.trans hawaited) hawake rfl]

/-! ### The Request FIFO and the transmitter (R173, R174) -/

/-- A request that cannot be taken joins the Request FIFO, or is discarded with an OVERRUN report. -/
theorem offerRequest_eq (r : Request) (b : Blocks) : offerRequest r b = setCli
    (if b.cli.fifo.length < 4 then { b.cli with fifo := b.cli.fifo ++ [r] }
      else if b.cli.discards.length < 4 then { b.cli with discards := b.cli.discards ++ [.overrun r.type] }
      else { b.cli with unreported := min 65535 (b.cli.unreported + 1) }) b := by
  unfold offerRequest reportDiscard Config.maxFifo Config.maxDiscards
  split
  · rfl
  · split <;> rfl

theorem offerRequest_resp (r : Request) (b : Blocks) :
    (offerRequest r b).cli.resp = b.cli.resp ∧ (offerRequest r b).cli.resetAwaited = b.cli.resetAwaited := by
  rw [offerRequest_eq, setCli_cli]
  split
  · exact ⟨rfl, rfl⟩
  · split <;> exact ⟨rfl, rfl⟩

theorem canTake_eq_false {c : CellLineInterface} (h : c.fifo = [] ∨ c.resp.isSome = true ∨ c.resetAwaited = true) :
    canTake c = false := by
  unfold canTake
  rcases h with h | h | h
  · simp [h]
  · simp [Option.isNone_eq_false_iff.mpr h]
  · simp [h]

/-- The transmitter takes a message up, and no request is taken. -/
theorem exec_transmits {s : State} {m : CellMsg} {c : CellLineInterface} (hnext : nextMessage s.blocks.cli = some (m, c))
    (hno : canTake c = false) : exec .cellLineTransmit s = .next (State.finish (s.withCli { c with tx := some m })) := by
  change Host.Outcome.next (cellTransmit s) = _
  rw [cellTransmit, hnext]
  exact next_congr (takeRequest_of_not hno)

theorem nextMessage_response {c : CellLineInterface} {r : Response} (h : c.resp = some r) :
    nextMessage c = some (.response r, { c with resp := none }) := by
  rw [nextMessage, h]

theorem nextMessage_discard {c : CellLineInterface} {d : DiscardReport} {ds : List DiscardReport} (hr : c.resp = none)
    (hd : c.discards = d :: ds) : nextMessage c = some (.discard d, { c with discards := ds }) := by
  rw [nextMessage, hr, hd]

theorem nextMessage_notice {c : CellLineInterface} {n : Notice} {ns : List Notice} (hr : c.resp = none)
    (hd : c.discards = []) (hn : c.notices = n :: ns) : nextMessage c = some (.notice n, { c with notices := ns }) := by
  rw [nextMessage, hr, hd, hn]

theorem nextMessage_none {c : CellLineInterface} (hr : c.resp = none) (hd : c.discards = []) (hn : c.notices = []) :
    nextMessage c = none := by
  rw [nextMessage, hr, hd, hn]

/-- Settles O46. -/
theorem requestsWaitAndTheTransmitterSends : Obligations.RequestsWaitAndTheTransmitterSends := by
  refine ⟨fun s c r hc hwaits => ?_, fun s hno => ⟨fun r hr => ?_, fun d ds hr hd => ?_, fun n ns hr hd hn => ?_,
    fun hr hd hn => ?_⟩, fun s u x r rest hresp hfifo hawaited hu => ?_⟩
  · obtain ⟨hr, ha⟩ := offerRequest_resp r s.blocks
    have hno : canTake (offerRequest r s.blocks).cli = false := canTake_eq_false (by rw [hr, ha]; exact .inr hwaits)
    rw [exec_request hc, request, takeRequest_of_not (s := s.mapBlocks fun _ b => offerRequest r b) hno]
    exact next_congr (congrArg (fun b : Blocks => ({ s with blocks := b } : State)) (offerRequest_eq r s.blocks))
  · exact exec_transmits (nextMessage_response hr) (canTake_eq_false (hno.imp id .inr))
  · exact exec_transmits (nextMessage_discard hr hd) (canTake_eq_false (hno.imp id .inr))
  · exact exec_transmits (nextMessage_notice hr hd hn) (canTake_eq_false (hno.imp id .inr))
  · change Host.Outcome.next (cellTransmit s) = _
    rw [cellTransmit, nextMessage_none hr hd hn]
  · have hexec : exec .cellLineTransmit s = .next (State.finish (takeRequest
        (s.withCli { s.blocks.cli with tx := some (.response x), resp := none }))) := by
      change Host.Outcome.next (cellTransmit s) = _
      rw [cellTransmit, nextMessage_response hresp]
      rfl
    refine ⟨fun a w hw => ?_, fun c hrest hc => ?_⟩
    · rw [hexec]
      refine next_congr (takeRequest_taken hfifo ?_ ?_)
      · simp [canTake, State.withCli, hfifo, hawaited]
      · rw [← hw, hu]
        rfl
    · have hoffered : (u.mapBlocks fun _ b => offerRequest r b)
          = s.withCli { s.blocks.cli with tx := some (.response x), resp := none } := by
        have hempty : u.blocks.cli.fifo = [] := by rw [hu, ← hrest]; rfl
        rw [State.mapBlocks, offerRequest_empty r _ hempty, hu, hrest]
        simp only [State.withCli, setCli, ← hrest, ← hfifo]
      rw [hexec, exec_request hc, request, hoffered]

end Sys2Proof.Machine
end

section
/-! The automatic holds at JOIN (O36): a frame that is owed as a STEP TALLY goes out before the pending holds, whatever
frame it is. -/

namespace Sys2Proof.Machine

/-- An OFFLINE station with one pending hold, which owes as its STEP TALLY a HOLD of another level on the same lot. -/
def owingHold : State :=
  { State.reset with
    stationId := 1
    blocks := { State.reset.blocks with iw := { State.reset.blocks.iw with
      tallyOwed := some (.hold 0 (.lot 5) .operator .host), pendingHolds := [⟨.lot 5, .quality, .yield⟩] } } }

/-- The levels of the HOLDs that stand or wait after a command. -/
def heldLevels : Host.Outcome State Fault Refusal → List Level
  | .next t => (t.blocks.lc.queue ++ t.blocks.lc.waiting).filterMap fun e =>
      match e.body with
      | .hold _ _ l _ => some l
      | _ => none
  | _ => []

theorem mem_heldLevels {t : State} {e : SendEntry} {sn : BitVec 8} {x : HoldTarget} {l : Level} {r : Reason}
    (he : e ∈ t.blocks.lc.queue ++ t.blocks.lc.waiting) (hbody : e.body = .hold sn x l r) : l ∈ heldLevels (.next t) :=
  List.mem_filterMap.mpr ⟨e, he, by rw [hbody]⟩

/-- The pending hold finds the owed frame standing, and is dropped (R149, R154). -/
theorem heldLevels_owingHold : heldLevels (exec .join owingHold) = [.operator] := by decide +kernel

/-- Refutes O36: the lone pending hold of `owingHold` meets every condition, and no HOLD of its level goes out at JOIN. -/
theorem not_automaticHoldsAreChecked : ¬ Obligations.AutomaticHoldsAreChecked := by
  rintro ⟨-, -, -, hjoin⟩
  obtain ⟨t, ht, -, -, hlone⟩ := hjoin owingHold .join ⟨rfl, rfl, rfl, by decide⟩ rfl
    (.inl ⟨rfl, rfl, by decide, by decide⟩)
  obtain ⟨sn, e, he, hbody⟩ := hlone ⟨.lot 5, .quality, .yield⟩ rfl rfl rfl (by decide)
  have hlevel := mem_heldLevels he hbody
  rw [← ht, heldLevels_owingHold] at hlevel
  revert hlevel
  decide

end Sys2Proof.Machine
end

section
/-! A waiting offer marked for removal, and CEDEs that are owed (O53): its grant ends its standing (R9, log 7). -/

namespace Sys2Proof.Machine

/-- A floor of one lot, whose two steps the station 1 has claimed. -/
def twoClaimed : View :=
  { State.reset.view with
    id := 1
    rep := { Replica.empty with lots := [⟨5, 1, 9, 9, 1, false, false, none, false,
      [⟨⟨1, 1, 1, 0, .ambient, 1, 2⟩, .claimed 1 9⟩, ⟨⟨1, 1, 1, 0, .ambient, 1, 2⟩, .claimed 1 9⟩]⟩] } }

/-- A READY head whose slot is not verified, with its STEP START queued; behind it an entry with a cede cause, whose CEDE
waits and is marked for removal. -/
def grantedCede : Blocks :=
  { State.reset.blocks with
    pu := { State.reset.blocks.pu with station := .active }
    du := { State.reset.blocks.du with queue :=
      [⟨5, 1, .ready, none, none, none, false, none, true⟩, ⟨5, 2, .won, none, none, some .host, false, none, false⟩] }
    lc := { State.reset.blocks.lc with
      queue := [internal (.stepStart 5 1 1) .du]
      waiting := [{ internal (.cede 5 2) .du with removal := true }] } }

/-- The second entry keeps its cede cause, and the grant that follows the withdrawn STEP START takes its CEDE into the
queue, where it does not stand (R9, R11). -/
theorem grantedCede_evaluated :
    (⟨5, 2, .won, some 1, some .ambient, some .host, false, none, false⟩ : QueueEntry) ∈
        (evaluateDispatch twoClaimed grantedCede).du.queue ∧
      (evaluateDispatch twoClaimed grantedCede).lc.standing (· == .cede 5 2) = false := by decide +kernel

/-- Refutes O53: in `grantedCede` an entry with a cede cause has no CEDE standing after the evaluation. -/
theorem not_cedeAndClearRefusals : ¬ Obligations.CedeAndClearRefusals := by
  rintro ⟨-, -, heval⟩
  obtain ⟨hmem, hgone⟩ := grantedCede_evaluated
  obtain ⟨-, -, hstands⟩ := heval twoClaimed grantedCede _ _ _ _ (by decide) hmem rfl rfl rfl rfl
  rw [hstands rfl rfl] at hgone
  cases hgone

end Sys2Proof.Machine
end

section
/-! The Load Engine's evaluation (O35): the abort (R116, R126), the choice of work (R117, R118), and what is in flight at
the end of a command. -/

namespace Sys2Proof.Machine

/-! ### Slots and pairs -/

theorem holds_self (st : SlotState) (p : SlotProgram) : (⟨st, some p⟩ : SlotRec).holds st (p.program, p.revision) = true := by
  simp [SlotRec.holds, SlotRec.pair?]

/-- A slot that does not present a pair does not hold it LOADED or VERIFIED (R114). -/
theorem holds_of_not_presents {r : SlotRec} {p : Nat × Nat} (h : r.presents p = false) {st : SlotState}
    (hst : st = .loaded ∨ st = .verifying ∨ st = .verified) : r.holds st p = false := by
  rw [Bool.eq_false_iff]
  intro hholds
  obtain ⟨hstate, hpair⟩ := Bool.and_eq_true_iff.mp hholds
  obtain ⟨q, hq, hpq⟩ := Option.map_eq_some_iff.mp (eq_of_beq hpair)
  have hpresents : r.presents p = true := by
    rw [SlotRec.presents, eq_of_beq hstate, hq, ← hpq]
    rcases hst with rfl | rfl | rfl <;> simp
  rw [hpresents] at h
  cases h

/-! ### The abort -/

theorem chooseWork_busy {v : View} {b : Blocks} {o : Operation} (h : b.le.op = some o) : chooseWork v b = b := by
  rw [chooseWork, h]

theorem abortOp_eq (x : Slot) (b : Blocks) : abortOp x b = b.withLe { b.le.put x ⟨.loading, (b.le.slot x).prog⟩ with
    op := some ⟨.purge, some x, 5000⟩, sent := b.le.sent ++ [.abort x] } true := by
  rw [abortOp, setSlot_eq]
  cases x <;> rfl

/-- The operations the abort looks at: a LOAD or a VERIFY of a slot that names a program. -/
theorem abortUnwanted_loading {v : View} {b : Blocks} {kind : OpKind} {x : Slot} {tm : Nat} {p : SlotProgram}
    (hop : b.le.op = some ⟨kind, some x, tm⟩) (hp : (b.le.slot x).prog = some p) (hk : kind = .load ∨ kind = .verify) :
    abortUnwanted v b = if v.rep.heldAs (.program p.program p.revision) || !wanted v b (p.program, p.revision) then
      abortOp x b else b := by
  have hpair : (b.le.slot x).pair? = some (p.program, p.revision) := by rw [SlotRec.pair?, hp]; rfl
  unfold abortUnwanted
  rw [hop]
  rcases hk with rfl | rfl <;> simp only [hpair] <;> rfl

theorem abortUnwanted_other {v : View} {b : Blocks} {o : Operation} (hop : b.le.op = some o)
    (hk : o.kind = .swap ∨ o.kind = .purge ∨ o.slot = none) : abortUnwanted v b = b := by
  obtain ⟨kind, x, tm⟩ := o
  unfold abortUnwanted
  rw [hop]
  rcases hk with hk | hk | hk
  · simp only at hk
    subst hk
    rfl
  · simp only at hk
    subst hk
    rfl
  · simp only at hk
    subst hk
    cases kind <;> rfl

theorem abortUnwanted_idle {v : View} {b : Blocks} (hop : b.le.op = none) : abortUnwanted v b = b := by
  rw [abortUnwanted, hop]

theorem evaluateLoad_aborts {v : View} {b : Blocks} {kind : OpKind} {x : Slot} {tm : Nat} {p : SlotProgram}
    (hop : b.le.op = some ⟨kind, some x, tm⟩) (hp : (b.le.slot x).prog = some p) (hk : kind = .load ∨ kind = .verify)
    (h : v.rep.heldAs (.program p.program p.revision) = true ∨ wanted v b (p.program, p.revision) = false) :
    evaluateLoad v b = b.withLe { b.le.put x ⟨.loading, some p⟩ with
      op := some ⟨.purge, some x, 5000⟩, sent := b.le.sent ++ [.abort x] } true := by
  have hcond : (v.rep.heldAs (.program p.program p.revision) || !wanted v b (p.program, p.revision)) = true := by
    rcases h with h | h <;> simp [h]
  rw [evaluateLoad, abortUnwanted_loading hop hp hk, if_pos hcond, abortOp_eq, hp]
  exact chooseWork_busy rfl

theorem evaluateLoad_goes_on {v : View} {b : Blocks} {kind : OpKind} {x : Slot} {tm : Nat} {p : SlotProgram}
    (hop : b.le.op = some ⟨kind, some x, tm⟩) (hp : (b.le.slot x).prog = some p)
    (h : kind = .purge ∨ v.rep.heldAs (.program p.program p.revision) = false ∧
      wanted v b (p.program, p.revision) = true) : evaluateLoad v b = b := by
  have habort : abortUnwanted v b = b := by
    by_cases hk : kind = .load ∨ kind = .verify
    · rw [abortUnwanted_loading hop hp hk]
      rcases h with rfl | ⟨hheld, hwanted⟩
      · rcases hk with hk | hk <;> cases hk
      · exact if_neg (by simp [hheld, hwanted])
    · refine abortUnwanted_other hop ?_
      cases kind <;> simp_all
  rw [evaluateLoad, habort]
  exact chooseWork_busy hop

/-! ### The operations -/

theorem issueVerify_eq {x : Slot} {b : Blocks} {p : SlotProgram} (h : (b.le.slot x).prog = some p) :
    issueVerify x b = b.withLe { b.le.put x ⟨.verifying, some p⟩ with
      op := some ⟨.verify, some x, 5000⟩, sent := b.le.sent ++ [.verify x p.checksum] } true := by
  rw [issueVerify, h]
  simp only [setSlot_eq]
  cases x <;> rfl

theorem issueSwap_eq (b : Blocks) : issueSwap b = b.withLe { b.le with
    op := some ⟨.swap, none, 5000⟩, sent := b.le.sent ++ [.swap] } b.du.evalDue := by
  rw [Blocks.withLe, Bool.or_self]
  rfl

theorem issueLoad_eq (v : View) (x : Slot) (sp : StepSpec) (b : Blocks) : issueLoad v x sp b = b.withLe { b.le.put x
    ⟨.loading, some ⟨sp.program, sp.revision, sp.checksum, sp.blocks, 0, 0⟩⟩ with
      op := some ⟨.load, some x, v.cfg.blockTimeout⟩
      sent := b.le.sent ++ [.load x sp.program sp.revision 0 sp.blocks sp.checksum] } true := by
  rw [issueLoad, setSlot_eq]
  cases x <;> rfl

/-! ### The head's program (R117) -/

theorem evaluateLoad_free {v : View} {b : Blocks} (hop : b.le.op = none) : evaluateLoad v b = chooseWork v b := by
  rw [evaluateLoad, abortUnwanted_idle hop]

theorem evaluateLoad_head {v : View} {b : Blocks} {f : Blocks → Blocks} (hop : b.le.op = none) (h : headWork v b = some f) :
    evaluateLoad v b = f b := by
  rw [evaluateLoad_free hop]
  simp only [chooseWork, hop, h]

/-- What a head before its run, with its step in the replica and its pair not held, has begun for it. -/
theorem headWork_eq {v : View} {b : Blocks} {h : QueueEntry} {q : List QueueEntry} {y : StepRec}
    (hw : isWorking b.station = true) (hq : b.du.queue = h :: q) (hphase : h.phase = .preparing ∨ h.phase = .ready)
    (hcede : h.cede = none) (hy : v.rep.step? h.lot h.step = some y)
    (hheld : v.rep.pairHeld y.spec.pair = false) :
    headWork v b =
      if b.le.active.holds .verified y.spec.pair then none
      else if b.le.active.holds .loaded y.spec.pair then some (issueVerify .active)
      else if b.le.staged.holds .verified y.spec.pair then (if readyButSlot v b h then some issueSwap else none)
      else if b.le.staged.holds .loaded y.spec.pair then some (issueVerify .staged)
      else if b.le.active.presents y.spec.pair || b.le.staged.presents y.spec.pair then none
      else if runningHere v then none
      else some (issueLoad v .active y.spec) := by
  have hcond : (isWorking b.station && (h.phase == .preparing || h.phase == .ready) && h.cede.isNone) = true := by
    rcases hphase with hphase | hphase <;> simp [hw, hphase, hcede]
  rw [headWork, hq]
  simp only
  rw [if_pos hcond, entryStep, hy]
  simp only [hheld, Bool.false_eq_true, if_false]

theorem not_runningHere {v : View} (h : ∀ l ∈ v.rep.lots, ∀ x ∈ l.plan, x.state.runningAt v.id = false) :
    runningHere v = false := by
  rw [runningHere, List.any_eq_false]
  intro l hl
  rw [Bool.not_eq_true, List.any_eq_false]
  intro x hx
  rw [h l hl x hx]
  exact Bool.false_ne_true

/-- Another state of a slot's record. -/
theorem holds_other {st st' : SlotState} (p : SlotProgram) (q : Nat × Nat) (h : st ≠ st') :
    (⟨st, some p⟩ : SlotRec).holds st' q = false := by
  simp [SlotRec.holds, h]

/-! ### The programs behind the head (R118) -/

theorem headWork_inRun {v : View} {b : Blocks} {h : QueueEntry} {q : List QueueEntry} (hq : b.du.queue = h :: q)
    (hrun : beforeRun h.phase = false) : headWork v b = none := by
  rw [headWork, hq]
  refine if_neg ?_
  revert hrun
  cases h.phase <;> simp [beforeRun]

theorem evaluateLoad_behind {v : View} {b : Blocks} {f : Blocks → Blocks} (hop : b.le.op = none)
    (hhead : headWork v b = none) (h : behindWork v b = some f) : evaluateLoad v b = f b := by
  rw [evaluateLoad_free hop]
  simp only [chooseWork, hop, hhead, h]

/-- ACTIVE is VERIFIED, so the work behind the head is at STAGED. -/
theorem behindWork_eq {v : View} {b : Blocks} (hw : isWorking b.station = true) (ha : b.le.active.state = .verified) :
    behindWork v b =
      if verifiable v b b.le.staged then some (issueVerify .staged)
      else match (b.du.queue.drop 1).find? (missing v b) with
        | some e => if stagedFree v b then (entryStep v e).map fun s => issueLoad v .staged s.spec else none
        | none => none := by
  have hactive : verifiable v b b.le.active = false := by simp [verifiable, ha]
  rw [behindWork, if_pos hw, hactive]
  rfl

theorem verifiable_loaded {v : View} {b : Blocks} (p : SlotProgram) :
    verifiable v b ⟨.loaded, some p⟩ =
      (wanted v b (p.program, p.revision) && !v.rep.heldAs (.program p.program p.revision)) := rfl

/-- STAGED is free for a load behind the head. -/
def Staging (v : View) (b : Blocks) : Prop :=
  b.le.staged.state = .unknown ∨ b.le.staged.state = .empty ∨ b.le.staged.state = .failed ∨
    ∃ p : SlotProgram, (b.le.staged = ⟨.loaded, some p⟩ ∨ b.le.staged = ⟨.verified, some p⟩) ∧
      wanted v b (p.program, p.revision) = false

theorem Staging.free {v : View} {b : Blocks} (h : Staging v b) : stagedFree v b = true := by
  rcases h with h | h | h | ⟨p, h | h, hwanted⟩
  · simp [stagedFree, h]
  · simp [stagedFree, h]
  · simp [stagedFree, h]
  · simp [stagedFree, h, SlotRec.pair?, hwanted]
  · simp [stagedFree, h, SlotRec.pair?, hwanted]

theorem Staging.not_verifiable {v : View} {b : Blocks} (h : Staging v b) : verifiable v b b.le.staged = false := by
  rcases h with h | h | h | ⟨p, h | h, hwanted⟩
  · simp [verifiable, h]
  · simp [verifiable, h]
  · simp [verifiable, h]
  · rw [h, verifiable_loaded, hwanted, Bool.false_and]
  · simp [verifiable, h]

/-- A free STAGED slot presents no pair that is wanted. -/
theorem Staging.not_presents {v : View} {b : Blocks} (h : Staging v b) {p : Nat × Nat} (hp : wanted v b p = true) :
    b.le.staged.presents p = false := by
  rcases h with h | h | h | ⟨r, hr, hwanted⟩
  · simp [SlotRec.presents, h]
  · simp [SlotRec.presents, h]
  · simp [SlotRec.presents, h]
  · have hne : ¬(r.program = p.1 ∧ r.revision = p.2) := fun ⟨h1, h2⟩ => by
      rw [h1, h2, hp] at hwanted
      cases hwanted
    rcases hr with hr | hr <;> simp [SlotRec.presents, hr] <;> exact fun h1 h2 => hne ⟨h1, h2⟩

theorem wanted_of_mem {v : View} {b : Blocks} {e : QueueEntry} {p : Nat × Nat} (he : e ∈ b.du.queue) (hc : e.cede = none)
    (hp : entryPair v e = some p) : wanted v b p = true := by
  rw [wanted, List.any_eq_true]
  exact ⟨e, he, by simp [hc, hp]⟩

theorem entryPair_of_step {v : View} {e : QueueEntry} {y : StepRec} (h : v.rep.step? e.lot e.step = some y) :
    entryPair v e = some y.spec.pair := by
  rw [entryPair, h]
  rfl

/-! ### What is in flight at the end of a command -/

/-- A LOAD or VERIFY in flight is of a pair that is wanted and not held (R116). -/
def LoadWanted (v : View) (b : Blocks) : Prop :=
  ∀ (kind : OpKind) (x : Slot) (tm : Nat) (p : SlotProgram), b.le.op = some ⟨kind, some x, tm⟩ →
    kind = .load ∨ kind = .verify → (b.le.slot x).prog = some p →
    v.rep.heldAs (.program p.program p.revision) = false ∧ wanted v b (p.program, p.revision) = true

theorem holds_prog {r : SlotRec} {st : SlotState} {p : Nat × Nat} (h : r.holds st p = true) :
    ∃ q : SlotProgram, r.prog = some q ∧ (q.program, q.revision) = p := by
  obtain ⟨-, hpair⟩ := Bool.and_eq_true_iff.mp h
  obtain ⟨q, hq, hpq⟩ := Option.map_eq_some_iff.mp (eq_of_beq hpair)
  exact ⟨q, hq, hpq⟩

theorem loadWanted_of_idle {v : View} {b : Blocks} (h : ∀ kind x tm, b.le.op = some ⟨kind, some x, tm⟩ →
    kind ≠ .load ∧ kind ≠ .verify) : LoadWanted v b := fun kind x tm _ hop hk _ =>
  absurd hk (not_or.mpr (h kind x tm hop))

/-- An operation begun for a pair that is wanted and not held. -/
theorem loadWanted_withLe {v : View} {b : Blocks} {l : LoadEngine} {kind : OpKind} {x : Slot} {tm : Nat} {q : SlotProgram}
    (hop : l.op = some ⟨kind, some x, tm⟩) (hq : (l.slot x).prog = some q)
    (hheld : v.rep.pairHeld (q.program, q.revision) = false) (hw : wanted v b (q.program, q.revision) = true) :
    LoadWanted v (b.withLe l true) := by
  intro kind' x' tm' q' hop' _ hq'
  have hsame := hop.symm.trans hop'
  simp only [Option.some.injEq, Operation.mk.injEq] at hsame
  obtain ⟨-, rfl, -⟩ := hsame
  cases hq.symm.trans hq'
  exact ⟨hheld, hw⟩

theorem issueVerify_wanted {v : View} {b : Blocks} {x : Slot} {p : Nat × Nat} (hr : (b.le.slot x).holds .loaded p = true)
    (hheld : v.rep.pairHeld p = false) (hw : wanted v b p = true) : LoadWanted v (issueVerify x b) := by
  obtain ⟨q, hq, rfl⟩ := holds_prog hr
  rw [issueVerify_eq hq]
  exact loadWanted_withLe rfl (congrArg SlotRec.prog (slot_put b.le x ⟨.verifying, some q⟩)) hheld hw

theorem issueLoad_wanted {v : View} {b : Blocks} (x : Slot) {sp : StepSpec} (hheld : v.rep.pairHeld sp.pair = false)
    (hw : wanted v b sp.pair = true) : LoadWanted v (issueLoad v x sp b) := by
  rw [issueLoad_eq]
  exact loadWanted_withLe rfl (congrArg SlotRec.prog (slot_put b.le x
    ⟨.loading, some ⟨sp.program, sp.revision, sp.checksum, sp.blocks, 0, 0⟩⟩)) hheld hw

theorem issueSwap_wanted (v : View) (b : Blocks) : LoadWanted v (issueSwap b) :=
  loadWanted_of_idle fun kind x tm hop => by
    rw [issueSwap_eq] at hop
    cases hop

theorem headWork_wanted {v : View} {b : Blocks} {f : Blocks → Blocks} (h : headWork v b = some f) :
    LoadWanted v (f b) := by
  unfold headWork at h
  split at h
  · next e q hq =>
    split at h
    · next hcond =>
      split at h
      · next y hy =>
        have hcede : e.cede = none := Option.isNone_iff_eq_none.mp (Bool.and_eq_true_iff.mp hcond).2
        have hw : wanted v b y.spec.pair = true :=
          wanted_of_mem (by rw [hq]; exact List.mem_cons_self) hcede (entryPair_of_step hy)
        simp only at h
        split at h
        · cases h
        next hheld =>
        rw [Bool.not_eq_true] at hheld
        split at h
        · cases h
        split at h
        · next hr =>
          cases h
          exact issueVerify_wanted (x := .active) hr hheld hw
        split at h
        · split at h
          · cases h
            exact issueSwap_wanted v b
          · cases h
        split at h
        · next hr =>
          cases h
          exact issueVerify_wanted (x := .staged) hr hheld hw
        split at h
        · cases h
        split at h
        · cases h
        cases h
        exact issueLoad_wanted .active hheld hw
      · cases h
    · cases h
  · cases h

theorem verifiable_wanted {v : View} {b : Blocks} {x : Slot} (h : verifiable v b (b.le.slot x) = true) :
    LoadWanted v (issueVerify x b) := by
  obtain ⟨hstate, hrest⟩ := Bool.and_eq_true_iff.mp h
  split at hrest
  · next p hp =>
    obtain ⟨hw, hheld⟩ := Bool.and_eq_true_iff.mp hrest
    rw [Bool.not_eq_true'] at hheld
    exact issueVerify_wanted (by rw [SlotRec.holds, hstate, hp]; simp) hheld hw
  · cases hrest

theorem missing_wanted {v : View} {b : Blocks} {e : QueueEntry} {y : StepRec} (he : e ∈ b.du.queue)
    (hm : missing v b e = true) (hy : entryStep v e = some y) :
    v.rep.pairHeld y.spec.pair = false ∧ wanted v b y.spec.pair = true := by
  obtain ⟨hcede, hrest⟩ := Bool.and_eq_true_iff.mp hm
  rw [entryPair_of_step hy] at hrest
  obtain ⟨hheld, -⟩ := Bool.and_eq_true_iff.mp (Bool.and_eq_true_iff.mp hrest).1
  exact ⟨by simpa using hheld, wanted_of_mem he (Option.isNone_iff_eq_none.mp hcede) (entryPair_of_step hy)⟩

theorem behindWork_wanted {v : View} {b : Blocks} {f : Blocks → Blocks} (h : behindWork v b = some f) :
    LoadWanted v (f b) := by
  unfold behindWork at h
  split at h
  · split at h
    · next hr =>
      cases h
      exact verifiable_wanted (x := .active) hr
    split at h
    · next hr =>
      cases h
      exact verifiable_wanted (x := .staged) hr
    split at h
    · next e he =>
      split at h
      · obtain ⟨y, hy, rfl⟩ := Option.map_eq_some_iff.mp h
        obtain ⟨hheld, hw⟩ := missing_wanted (List.mem_of_mem_drop (List.mem_of_find?_eq_some he))
          (List.find?_some he) hy
        exact issueLoad_wanted .staged hheld hw
      · cases h
    · cases h
  · cases h

/-- After the abort, a LOAD or VERIFY still in flight is of a pair that is wanted and not held (R126). -/
theorem abortUnwanted_wanted (v : View) (b : Blocks) : LoadWanted v (abortUnwanted v b) := by
  intro kind x tm p hop hk hp
  cases hb : b.le.op with
  | none =>
    rw [abortUnwanted_idle hb, hb] at hop
    cases hop
  | some o =>
    by_cases hother : o.kind = .swap ∨ o.kind = .purge ∨ o.slot = none
    · rw [abortUnwanted_other hb hother, hb] at hop
      cases hop
      rcases hk with rfl | rfl <;> simp at hother
    · obtain ⟨kind', x', tm'⟩ := o
      have hk' : kind' = .load ∨ kind' = .verify := by cases kind' <;> simp_all
      obtain ⟨y, rfl⟩ : ∃ y, x' = some y := Option.ne_none_iff_exists'.mp fun h => hother (.inr (.inr h))
      cases hprog : (b.le.slot y).prog with
      | none =>
        have hkeep : abortUnwanted v b = b := by
          have hpair : (b.le.slot y).pair? = none := by rw [SlotRec.pair?, hprog]; rfl
          unfold abortUnwanted
          rw [hb]
          rcases hk' with rfl | rfl <;> simp only [hpair]
        rw [hkeep] at hop hp
        cases hb.symm.trans hop
        rw [hprog] at hp
        cases hp
      | some q =>
        rw [abortUnwanted_loading hb hprog hk'] at hop hp ⊢
        split at hop
        · rw [abortOp_eq] at hop
          cases hop
          rcases hk with hk | hk <;> cases hk
        · next hcond =>
          rw [if_neg hcond] at hp ⊢
          cases hb.symm.trans hop
          cases hprog.symm.trans hp
          simpa using hcond

theorem evaluateLoad_wanted (v : View) (b : Blocks) : LoadWanted v (evaluateLoad v b) := by
  have hkept := abortUnwanted_wanted v b
  unfold evaluateLoad chooseWork
  split
  · exact hkept
  · split
    · next h => exact headWork_wanted h
    · split
      · next h => exact behindWork_wanted h
      · exact hkept

/-! ### The last round of the evaluations -/

/-- The gate leaves the Dispatch Unit, the Handler Record, the Load Engine and the Send Queue alone. -/
theorem evaluateGate_rest (v : View) (b : Blocks) : (evaluateGate v b).du = b.du ∧ (evaluateGate v b).hr = b.hr ∧
    (evaluateGate v b).le = b.le ∧ (evaluateGate v b).lc = b.lc := by
  have hopen : (openGate v b).du = b.du ∧ (openGate v b).hr = b.hr ∧ (openGate v b).le = b.le ∧
      (openGate v b).lc = b.lc := by
    unfold openGate issueGo
    simp only
    split
    · split <;> exact ⟨rfl, rfl, rfl, rfl⟩
    · exact ⟨rfl, rfl, rfl, rfl⟩
  unfold evaluateGate
  split
  · split
    · exact ⟨rfl, rfl, rfl, rfl⟩
    · exact hopen
  · split <;> exact ⟨rfl, rfl, rfl, rfl⟩

/-- The evaluations end with a round. -/
theorem settle_last (v : View) (b : Blocks) : ∃ c, settle v b = settleRound v c := by
  have hrounds : ∀ (n : Nat) (c : Blocks), ∃ d, settleRounds v (n + 1) c = settleRound v d := by
    intro n
    induction n with
    | zero =>
      intro c
      refine ⟨c, ?_⟩
      unfold settleRounds settleRounds
      exact ite_self _
    | succ n ih =>
      intro c
      rw [settleRounds]
      split
      · exact ih _
      · exact ⟨c, rfl⟩
  unfold settle
  exact hrounds 15 b

theorem settle_wanted (v : View) (b : Blocks) : LoadWanted v (settle v b) := by
  obtain ⟨c, hc⟩ := settle_last v b
  obtain ⟨hdu, -, hle, -⟩ := evaluateGate_rest v (evaluateLoad v (upkeepRequest (evaluateIfDue v c)))
  have hwanted := evaluateLoad_wanted v (upkeepRequest (evaluateIfDue v c))
  rw [hc, settleRound]
  unfold LoadWanted wanted at hwanted ⊢
  rw [hdu, hle]
  exact hwanted

/-- What holds after the evaluations holds after the completion of a LEAVE sequence, too. -/
theorem completeLeave_settled {P : Blocks → Prop} (v : View) (b : Blocks) (h : ∀ c, P (settle v c)) :
    P (completeLeave v (settle v b)) := by
  unfold completeLeave
  split
  · exact h _
  · exact h b

theorem finish_wanted (v : View) (b : Blocks) : LoadWanted v (finish v b) :=
  completeLeave_settled (P := LoadWanted v) v b (settle_wanted v)

/-- Settles O35. -/
theorem loadEngineChooses : Obligations.LoadEngineChooses := by
  refine ⟨fun v b kind x tm p hop hp => ⟨evaluateLoad_aborts hop hp, evaluateLoad_goes_on hop hp⟩,
    fun v b tm hop => ?_, fun v b h q y p hop hw hq hphase hcede hy hpair hheld => ?_,
    fun v b h q hop hw hq hrun hactive => ?_,
    fun s kind x tm p hop hk hp => finish_wanted s.view s.blocks kind x tm p hop hk hp⟩
  · rw [evaluateLoad, abortUnwanted_other hop (.inl rfl)]
    exact chooseWork_busy hop
  · have hwork := headWork_eq hw hq hphase hcede hy (by rw [← hpair]; exact hheld)
    refine ⟨fun ha => ?_, fun ha hs hready => ?_, fun ha hs => ?_, fun ha hs hfree => ?_⟩
    · rw [ha, ← hpair, holds_other p _ (by decide), holds_self] at hwork
      rw [evaluateLoad_head hop hwork, issueVerify_eq (p := p) (by rw [LoadEngine.slot, ha])]
      rfl
    · rw [holds_of_not_presents ha (.inr (.inr rfl)), holds_of_not_presents ha (.inl rfl), hs, ← hpair, holds_self,
        hready] at hwork
      rw [evaluateLoad_head hop hwork, issueSwap_eq]
    · rw [holds_of_not_presents ha (.inr (.inr rfl)), holds_of_not_presents ha (.inl rfl), hs, ← hpair,
        holds_other p _ (by decide), holds_self] at hwork
      rw [evaluateLoad_head hop hwork, issueVerify_eq (p := p) (by rw [LoadEngine.slot, hs])]
      rfl
    · rw [holds_of_not_presents ha (.inr (.inr rfl)), holds_of_not_presents ha (.inl rfl),
        holds_of_not_presents hs (.inr (.inr rfl)), holds_of_not_presents hs (.inl rfl), ha, hs,
        not_runningHere hfree] at hwork
      rw [evaluateLoad_head hop hwork, issueLoad_eq]
      rfl
  · have hhead := headWork_inRun (v := v) hq hrun
    have hbehind := behindWork_eq (v := v) hw hactive
    refine ⟨fun p hs hwanted hheld => ?_, fun pre e post y hpre hy hcede hfree hheld ha hothers => ?_⟩
    · rw [hs, verifiable_loaded, hwanted, hheld] at hbehind
      rw [evaluateLoad_behind hop hhead hbehind, issueVerify_eq (p := p) (by rw [LoadEngine.slot, hs])]
      rfl
    · have hstaging : Staging v b := hfree
      have hmem : e ∈ b.du.queue := by rw [hq, hpre]; simp
      have hstaged : b.le.staged.presents y.spec.pair = false :=
        hstaging.not_presents (wanted_of_mem hmem hcede (entryPair_of_step hy))
      have hfind : (b.du.queue.drop 1).find? (missing v b) = some e := by
        have hnone : pre.find? (missing v b) = none := by
          refine List.find?_eq_none.mpr fun x hx hm => ?_
          obtain ⟨hxc, hrest⟩ := Bool.and_eq_true_iff.mp hm
          split at hrest
          · next p hp =>
            obtain ⟨z, hz, rfl⟩ := Option.map_eq_some_iff.mp hp
            have hother := hothers x hx (Option.isNone_iff_eq_none.mp hxc) z hz
            obtain ⟨⟨hxh, hxa⟩, -⟩ : (v.rep.pairHeld z.spec.pair = false ∧ b.le.active.presents z.spec.pair = false) ∧ _ := by
              simpa using hrest
            rcases hother with hother | hother
            · rw [show v.rep.pairHeld z.spec.pair = true from hother] at hxh
              cases hxh
            · rw [hother] at hxa
              cases hxa
          · cases hrest
        have hmissing : missing v b e = true := by
          simp [missing, hcede, entryPair_of_step hy, ha, hstaged, show v.rep.pairHeld y.spec.pair = false from hheld]
        rw [hq, hpre, List.drop_succ_cons, List.drop_zero, List.find?_append, hnone, Option.none_or,
          List.find?_cons_of_pos hmissing]
      have hload : behindWork v b = some (issueLoad v .staged y.spec) := by
        rw [hbehind, hstaging.not_verifiable, hfind]
        simp only [hstaging.free, entryStep, hy, if_true, Bool.false_eq_true, if_false, Option.map_some]
      rw [evaluateLoad_behind hop hhead hload, issueLoad_eq]
      rfl

end Sys2Proof.Machine
end

section
/-! What the Dispatch Unit's evaluation leaves alone (R83): the Insertion Watch, the Load Engine, and a head in run. -/

namespace Sys2Proof.Machine

/-- The lot, step and phase of a head in run. -/
def Blocks.inRun (b : Blocks) : Option (Nat × Nat × EntryPhase) :=
  b.du.queue.head?.bind fun h => if beforeRun h.phase then none else some (h.lot, h.step, h.phase)

theorem inRun_cons {b : Blocks} {h : QueueEntry} {q : List QueueEntry} (hq : b.du.queue = h :: q) :
    b.inRun = if beforeRun h.phase then none else some (h.lot, h.step, h.phase) := by
  rw [Blocks.inRun, hq]
  rfl

theorem inRun_eq_some {b : Blocks} {x : Nat × Nat × EntryPhase} (h : b.inRun = some x) :
    ∃ e q, b.du.queue = e :: q ∧ e.lot = x.1 ∧ e.step = x.2.1 ∧ e.phase = x.2.2 := by
  obtain ⟨e, he, hx⟩ := Option.bind_eq_some_iff.mp h
  obtain ⟨q, hq⟩ := List.head?_eq_some_iff.mp he
  split at hx
  · cases hx
  · cases hx
    exact ⟨e, q, hq, rfl, rfl, rfl⟩

structure Works (b c : Blocks) : Prop where
  iw : c.iw = b.iw
  le : c.le = b.le
  runs : ∀ x, b.inRun = some x → c.inRun = some x

theorem Works.refl (b : Blocks) : Works b b := ⟨rfl, rfl, fun _ => id⟩

theorem Works.trans {a b c : Blocks} (h : Works a b) (k : Works b c) : Works a c :=
  ⟨k.iw.trans h.iw, k.le.trans h.le, fun x hx => k.runs x (h.runs x hx)⟩

theorem Works.ite {p : Prop} [Decidable p] {a b c : Blocks} (h : Works a b) (k : Works a c) :
    Works a (if p then b else c) := by
  split
  · exact h
  · exact k

theorem Works.foldOver {α : Type} {f : List α → Blocks → Blocks} {g : α → Blocks → Blocks} (hnil : ∀ b, f [] b = b)
    (hcons : ∀ x xs b, f (x :: xs) b = f xs (g x b)) (hg : ∀ x b, Works b (g x b)) (xs : List α) :
    ∀ b, Works b (f xs b) := by
  induction xs with
  | nil => exact fun b => by rw [hnil]; exact .refl b
  | cons x xs ih => exact fun b => by rw [hcons]; exact (hg x b).trans (ih _)

/-- A change that leaves the Dispatch Queue alone, too. -/
theorem Works.of_queue {b c : Blocks} (hiw : c.iw = b.iw) (hle : c.le = b.le) (hq : c.du.queue = b.du.queue) : Works b c :=
  ⟨hiw, hle, fun x => by simp only [Blocks.inRun, hq]; exact id⟩

/-- Any change of the phases while the head is before its run. -/
theorem Works.of_beforeRun {b c : Blocks} (hiw : c.iw = b.iw) (hle : c.le = b.le) (h : b.inRun = none) : Works b c :=
  ⟨hiw, hle, fun x hx => by rw [h] at hx; cases hx⟩

theorem updateEntry_works (l k : Nat) (f : QueueEntry → QueueEntry)
    (hf : ∀ e, (f e).lot = e.lot ∧ (f e).step = e.step ∧ (f e).phase = e.phase) (b : Blocks) :
    Works b (updateEntry l k f b) := by
  have hinRun : (updateEntry l k f b).inRun = b.inRun := by
    simp only [Blocks.inRun, updateEntry, DispatchUnit.updateEntry, List.head?_map]
    cases b.du.queue.head? with
    | none => rfl
    | some e =>
      obtain ⟨hlot, hstep, hphase⟩ := hf e
      simp only [Option.map_some, Option.bind_some]
      split <;> simp only [hlot, hstep, hphase]
  exact ⟨rfl, rfl, fun x hx => hinRun.trans hx⟩

/-! ### Cedes and the kit request -/

theorem raise_works (n : Notice) (b : Blocks) : Works b (raise n b) := .of_queue rfl rfl rfl

theorem withdrawAll_works (p : FrameBody → Bool) (b : Blocks) : Works b (withdrawAll p b) := .of_queue rfl rfl rfl

theorem offer_works (body : FrameBody) (t : Nat) (o : Owner) (host : Bool) (b : Blocks) :
    Works b (offer body t o host b) := .ite (.of_queue rfl rfl rfl) (.refl b)

theorem markDue_works (b : Blocks) : Works b (markDue b) := .of_queue rfl rfl rfl

theorem setRequest_works (r : Option KitRequest) (b : Blocks) : Works b (setRequest r b) := .of_queue rfl rfl rfl

theorem enqueueCede_works (l k : Nat) (host : Bool) (b : Blocks) : Works b (enqueueCede l k host b) :=
  .ite (.refl b) (offer_works ..)

theorem setCede_works (c : CedeCause) (l k : Nat) (b : Blocks) : Works b (setCede c l k b) := by
  unfold setCede
  split
  · next e _ =>
    refine .ite ?_ (.refl b)
    have hset := updateEntry_works l k (fun e => { e with cede := some (mergeCause e.cede c) })
      (fun _ => ⟨rfl, rfl, rfl⟩) b
    have hstart := hset.trans (Works.ite (p := e.phase == .ready) (withdrawAll_works (isStartOf l k) _) (.refl _))
    have hdue := hstart.trans (Works.ite (p := e.phase == .ready) (markDue_works _) (.refl _))
    exact .ite (hdue.trans (enqueueCede_works l k _ _)) hdue
  · exact .refl b

theorem clearCede_works (c : CedeCause) (l k : Nat) (b : Blocks) : Works b (clearCede c l k b) :=
  (updateEntry_works l k _ (fun e => by split <;> exact ⟨rfl, rfl, rfl⟩) b).trans (withdrawAll_works _ _)

theorem oweCedes_works : ∀ (es : List QueueEntry) (b : Blocks), Works b (oweCedes es b)
  | [], b => .refl b
  | e :: es, b => by
    refine Works.trans ?_ (oweCedes_works es _)
    split
    · exact .ite (enqueueCede_works _ _ _ b) (.refl b)
    · exact .refl b

theorem holdCede_works (v : View) (e : QueueEntry) (b : Blocks) : Works b (holdCede v e b) :=
  .ite (.ite (setCede_works _ _ _ b) (.refl b)) (.ite (clearCede_works _ _ _ b) (.refl b))

theorem holdCedes_works (v : View) : ∀ (es : List QueueEntry) (b : Blocks), Works b (holdCedes v es b) :=
  .foldOver (fun _ => rfl) (fun _ _ _ => rfl) (holdCede_works v)

theorem endRequest_works (b : Blocks) : Works b (endRequest b) := by
  unfold endRequest
  split
  · exact (setRequest_works none b).trans (withdrawAll_works _ _)
  · exact .refl b

theorem chooseKit_works (v : View) (r : KitRequest) (b : Blocks) : Works b (chooseKit v r b) := by
  unfold chooseKit
  refine .ite (endRequest_works b) ?_
  split
  · exact (setRequest_works _ b).trans (raise_works _ _)
  · split
    · exact (setRequest_works _ b).trans (raise_works _ _)
    · split
      · exact (setRequest_works _ b).trans (offer_works ..)
      · exact (endRequest_works b).trans (setCede_works ..)

theorem askKit_works (v : View) (l k f : Nat) (b : Blocks) : Works b (askKit v l k f b) := by
  unfold askKit
  split
  · exact .ite (.refl b) ((endRequest_works b).trans (chooseKit_works v _ _))
  · exact chooseKit_works v _ b

theorem upkeepRequest_works (b : Blocks) : Works b (upkeepRequest b) := by
  unfold upkeepRequest
  split
  · split
    · exact .ite (.refl b) (endRequest_works b)
    · exact endRequest_works b
  · exact .refl b

/-! ### The evaluation -/

theorem computeNeeds_works (v : View) (e : QueueEntry) (b : Blocks) : Works b (computeNeeds v e b) := by
  unfold computeNeeds
  simp only
  split
  · refine Works.trans (updateEntry_works _ _ _ ?_ b) (.ite (raise_works _ _) (.refl _))
    exact fun _ => ⟨rfl, rfl, rfl⟩
  · refine updateEntry_works _ _ _ ?_ b
    exact fun _ => ⟨rfl, rfl, rfl⟩

theorem computeAllNeeds_works (v : View) : ∀ (es : List QueueEntry) (b : Blocks), Works b (computeAllNeeds v es b) :=
  .foldOver (fun _ => rfl) (fun _ _ _ => rfl) (computeNeeds_works v)

theorem makeRequests_works (v : View) (e : QueueEntry) (b : Blocks) : Works b (makeRequests v e b) := by
  have hband : ∀ c : Blocks, Works c (match bandNeededOf v c e with
      | some x => raise (.bandNeeded e.lot e.step x) c
      | none => c) := fun c => by
    split
    · exact raise_works _ c
    · exact .refl c
  have hfront := (updateEntry_works e.lot e.step (fun x => { x with asked := true }) (fun _ => ⟨rfl, rfl, rfl⟩) b).trans
    (hband _)
  unfold makeRequests
  simp only
  split
  · exact hfront.trans (askKit_works v _ _ _ _)
  · exact hfront

/-- A step of the evaluation that is for a head before its run. -/
theorem withHead_works {f : QueueEntry → Blocks → Blocks} {p : QueueEntry → Blocks → Bool} {g : QueueEntry → Blocks → Blocks}
    (hf : ∀ h b, f h b = if p h b then g h b else b) (hp : ∀ h b, p h b = true → beforeRun h.phase = true)
    (hiw : ∀ h b, (g h b).iw = b.iw) (hle : ∀ h b, (g h b).le = b.le) (b : Blocks) : Works b (withHead f b) := by
  unfold withHead
  split
  · next h q hq =>
    rw [hf]
    split
    · next hcond =>
      exact .of_beforeRun (hiw h b) (hle h b) (by rw [inRun_cons hq, if_pos (hp h b hcond)])
    · exact .refl b
  · exact .refl b

theorem enterHead_works (b : Blocks) : Works b (enterHead b) :=
  withHead_works (f := headEnters)
    (g := fun h b => updateEntry h.lot h.step (fun e => { e with phase := .preparing, asked := false }) b)
    (p := fun h b => h.phase == .won && isWorking b.station && h.cede.isNone) (fun _ _ => rfl)
    (fun h b hcond => by
      have hphase := eq_of_beq (Bool.and_eq_true_iff.mp (Bool.and_eq_true_iff.mp hcond).1).1
      rw [hphase]
      rfl) (fun _ _ => rfl) (fun _ _ => rfl) b

theorem headFalls_works (v : View) (b : Blocks) : Works b (withHead (headFalls v) b) :=
  withHead_works (f := headFalls v) (g := fallBack) (p := fun h b => h.phase == .ready && !ready v b h) (fun _ _ => rfl)
    (fun h b hcond => by
      rw [eq_of_beq (Bool.and_eq_true_iff.mp hcond).1]
      rfl) (fun _ _ => rfl) (fun _ _ => rfl) b

theorem makeReady_rest (h : QueueEntry) (b : Blocks) : (makeReady h b).iw = b.iw ∧ (makeReady h b).le = b.le := by
  unfold makeReady offer
  split
  · split <;> exact ⟨rfl, rfl⟩
  · exact ⟨rfl, rfl⟩

theorem headReady_works (v : View) (b : Blocks) : Works b (withHead (headReady v) b) :=
  withHead_works (f := headReady v) (g := makeReady) (p := fun h b => h.phase == .preparing && ready v b h) (fun _ _ => rfl)
    (fun h b hcond => by
      rw [eq_of_beq (Bool.and_eq_true_iff.mp hcond).1]
      rfl) (fun h b => (makeReady_rest h b).1) (fun h b => (makeReady_rest h b).2) b

theorem headAsks_works (v : View) (b : Blocks) : Works b (withHead (headAsks v) b) :=
  withHead_works (f := headAsks v) (g := makeRequests v)
    (p := fun h b => h.phase == .preparing && b.station != .joining && h.cede.isNone && !h.asked)
    (fun _ _ => rfl)
    (fun h b hcond => by
      have hphase := eq_of_beq (Bool.and_eq_true_iff.mp (Bool.and_eq_true_iff.mp (Bool.and_eq_true_iff.mp hcond).1).1).1
      rw [hphase]
      rfl) (fun h b => (makeRequests_works v h b).iw) (fun h b => (makeRequests_works v h b).le) b

theorem withHoldCede_works (v : View) (b : Blocks) : Works b (withHead (holdCede v) b) := by
  unfold withHead
  split
  · exact holdCede_works v _ b
  · exact .refl b

theorem deferStep_works (v : View) (l : LotRec) (k : Nat) (s : StepRec) (b : Blocks) : Works b (deferStep v l k s b) :=
  .ite (.ite (.refl b) (.of_queue rfl rfl rfl))
    (.ite (.refl b) (.ite (.ite (offer_works ..) (.of_queue rfl rfl rfl)) (.refl b)))

theorem deferSteps_works (v : View) (l : LotRec) : ∀ (k : Nat) (ss : List StepRec) (b : Blocks),
    Works b (deferSteps v l k ss b)
  | _, [], b => .refl b
  | k, s :: ss, b =>
    Works.trans (b := if s.state.isWaiting then deferStep v l k s b else stopDeference l.lot k b)
      (.ite (deferStep_works v l k s b) (.of_queue rfl rfl rfl)) (deferSteps_works v l (k + 1) ss _)

theorem evaluateDeference_works (v : View) (b : Blocks) : Works b (evaluateDeference v b) := by
  have hlots : ∀ (ls : List LotRec) (c : Blocks), Works c (deferLots v ls c) :=
    .foldOver (fun _ => rfl) (fun _ _ _ => rfl) fun l c => deferSteps_works v l 1 l.plan c
  exact Works.trans
    (b := { b with du := { b.du with timers := b.du.timers.filter fun t => (v.rep.step? t.lot t.step).isSome } })
    (.of_queue rfl rfl rfl) (hlots _ _)

theorem evaluateDispatch_works (v : View) (b : Blocks) : Works b (evaluateDispatch v b) :=
  ((((((((computeAllNeeds_works v _ b).trans (enterHead_works _)).trans (holdCedes_works v _ _)).trans
    ((enterHead_works _).trans (withHoldCede_works v _))).trans (oweCedes_works _ _)).trans (headFalls_works v _)).trans
    (headAsks_works v _)).trans (headReady_works v _)).trans (evaluateDeference_works v _)

theorem evaluateIfDue_works (v : View) (b : Blocks) : Works b (evaluateIfDue v b) := by
  unfold evaluateIfDue
  exact .ite (Works.trans (b := { b with du := { b.du with evalDue := false } }) (.of_queue rfl rfl rfl)
    (evaluateDispatch_works v _)) (.refl b)

/-! ### The whole of the evaluations -/

/-- The Load Engine's evaluation changes its records, and perhaps makes an evaluation due (R113). -/
theorem evaluateLoad_rest (v : View) (b : Blocks) : ∃ l due, evaluateLoad v b = b.withLe l due := by
  have hself : ∀ c : Blocks, c = c.withLe c.le false := fun _ => rfl
  have habort : ∃ l due, abortUnwanted v b = b.withLe l due := by
    have hop : ∀ x, ∃ l due, abortOp x b = b.withLe l due := fun x => ⟨_, _, abortOp_eq x b⟩
    unfold abortUnwanted
    repeat' first
      | exact ⟨_, _, hself b⟩
      | exact hop _
      | split
  obtain ⟨l, due, habort⟩ := habort
  have hwith : ∀ (f : Blocks → Blocks), (∃ l' due', f (b.withLe l due) = (b.withLe l due).withLe l' due') →
      ∃ l' due', f (b.withLe l due) = b.withLe l' due' := fun f ⟨l', due', h⟩ =>
    ⟨l', due' || due, by rw [h]; simp only [Blocks.withLe, Bool.or_assoc]⟩
  have hverify : ∀ (x : Slot) (c : Blocks), ∃ l' due', issueVerify x c = c.withLe l' due' := fun x c => by
    cases hp : (c.le.slot x).prog with
    | none => exact ⟨_, _, (by rw [issueVerify, hp] : issueVerify x c = c).trans (hself c)⟩
    | some p => exact ⟨_, _, issueVerify_eq hp⟩
  rw [evaluateLoad, habort]
  unfold chooseWork
  split
  · exact ⟨_, _, rfl⟩
  · split
    · next f hf =>
      refine hwith f ?_
      unfold headWork at hf
      simp only at hf
      repeat' first
        | cases hf
        | exact hverify _ _
        | exact ⟨_, _, issueLoad_eq v _ _ _⟩
        | exact ⟨_, _, issueSwap_eq _⟩
        | split at hf
    · split
      · next f hf =>
        refine hwith f ?_
        unfold behindWork at hf
        repeat' first
          | cases hf
          | exact hverify _ _
          | (obtain ⟨s, _, rfl⟩ := Option.map_eq_some_iff.mp hf; exact ⟨_, _, issueLoad_eq v _ _ _⟩)
          | split at hf
      · exact ⟨_, _, rfl⟩

/-- One round leaves a head in run, and an idle insertion. -/
theorem settleRound_runs (v : View) (b : Blocks) {x : Nat × Nat × EntryPhase} (h : b.inRun = some x) :
    (settleRound v b).inRun = some x := by
  have hworks := (evaluateIfDue_works v b).trans (upkeepRequest_works _)
  obtain ⟨l, due, hload⟩ := evaluateLoad_rest v (upkeepRequest (evaluateIfDue v b))
  obtain ⟨hdu, -, -, -⟩ := evaluateGate_rest v (evaluateLoad v (upkeepRequest (evaluateIfDue v b)))
  rw [settleRound, Blocks.inRun, hdu, hload]
  exact hworks.runs x h

theorem evaluateGate_idle {v : View} {b : Blocks} (h : b.iw.insertion = .idle) :
    (evaluateGate v b).iw.insertion = .idle := by
  have hopen : (openGate v b).iw.insertion = .idle := by
    unfold openGate
    simp only [h]
  have hclose : (closeGate b).iw.insertion = .idle := by
    simp only [closeGate, closeGateIw, h]
    exact h
  unfold evaluateGate
  split
  · split
    · exact h
    · exact hopen
  · split
    · exact hclose
    · exact h

theorem settleRound_idle {v : View} {b : Blocks} (h : b.iw.insertion = .idle) :
    (settleRound v b).iw.insertion = .idle := by
  have hworks := (evaluateIfDue_works v b).trans (upkeepRequest_works _)
  obtain ⟨l, due, hload⟩ := evaluateLoad_rest v (upkeepRequest (evaluateIfDue v b))
  refine evaluateGate_idle ?_
  rw [hload]
  exact (congrArg InsertionWatch.insertion hworks.iw).trans h

/-- What every round keeps the evaluations keep. -/
theorem settle_keeps {v : View} {P : Blocks → Prop} (h : ∀ b, P b → P (settleRound v b)) (b : Blocks) (hb : P b) :
    P (settle v b) := by
  have hrounds : ∀ (n : Nat) (c : Blocks), P c → P (settleRounds v n c) := by
    intro n
    induction n with
    | zero => exact fun _ hc => hc
    | succ n ih =>
      intro c hc
      rw [settleRounds]
      split
      · exact ih _ (h c hc)
      · exact h c hc
  unfold settle
  exact hrounds 16 b hb

theorem settle_runs (v : View) {b : Blocks} {x : Nat × Nat × EntryPhase} (h : b.inRun = some x) :
    (settle v b).inRun = some x := settle_keeps (P := fun c => c.inRun = some x) (fun c hc => settleRound_runs v c hc) b h

theorem settle_idle (v : View) {b : Blocks} (h : b.iw.insertion = .idle) : (settle v b).iw.insertion = .idle :=
  settle_keeps (P := fun c => c.iw.insertion = .idle) (fun _ hc => settleRound_idle hc) b h

/-- The end of a command, outside a LEAVE sequence. -/
theorem finish_of_not_leaving {v : View} {b : Blocks} (h : b.du.leaving = false) :
    finish v b = keepParkTimer v (settle v b) := by
  unfold finish completeLeave leaveComplete
  rw [(settle_evolves v b).leaving, h]
  rfl

theorem finish_runs (v : View) {b : Blocks} {x : Nat × Nat × EntryPhase} (hl : b.du.leaving = false)
    (h : b.inRun = some x) : (finish v b).inRun = some x := by
  rw [finish_of_not_leaving hl]
  exact settle_runs v h

theorem finish_idle (v : View) {b : Blocks} (hl : b.du.leaving = false) (h : b.iw.insertion = .idle) :
    (finish v b).iw.insertion = .idle := by
  rw [finish_of_not_leaving hl]
  exact settle_idle v h

end Sys2Proof.Machine
end

section
/-! The units of an insertion (O43): what VERDICT and INSERTION_TIMEOUT do to the counters, the sites, the Yield Window, the
trip counter and the head (R138 to R144). -/

namespace Sys2Proof.Machine

/-! ### What leaves the records of the Insertion Watch alone -/

/-- The sites, the Step Counters, the Yield Window, the trip counter and the Dispatch Queue are left alone. -/
structure Apart (b c : Blocks) : Prop where
  sites : c.iw.sites = b.iw.sites
  counters : c.iw.counters = b.iw.counters
  window : c.iw.window = b.iw.window
  trip : c.iw.trip = b.iw.trip
  queue : c.du.queue = b.du.queue

theorem Apart.refl (b : Blocks) : Apart b b := ⟨rfl, rfl, rfl, rfl, rfl⟩

theorem Apart.trans {a b c : Blocks} (h : Apart a b) (k : Apart b c) : Apart a c :=
  ⟨k.sites.trans h.sites, k.counters.trans h.counters, k.window.trans h.window, k.trip.trans h.trip,
    k.queue.trans h.queue⟩

theorem Apart.ite {p : Prop} [Decidable p] {a b c : Blocks} (h : Apart a b) (k : Apart a c) :
    Apart a (if p then b else c) := by
  split
  · exact h
  · exact k

theorem raise_apart (n : Notice) (b : Blocks) : Apart b (raise n b) := ⟨rfl, rfl, rfl, rfl, rfl⟩

theorem offer_apart (body : FrameBody) (t : Nat) (o : Owner) (host : Bool) (b : Blocks) :
    Apart b (offer body t o host b) := .ite ⟨rfl, rfl, rfl, rfl, rfl⟩ (.refl b)

theorem autoHold_apart (v : View) (t : HoldTarget) (l : Level) (r : Reason) (b : Blocks) : Apart b (autoHold v t l r b) := by
  have hpending : Apart b (keepPending ⟨t, l, r⟩ b) := by
    unfold keepPending
    split <;> exact ⟨rfl, rfl, rfl, rfl, rfl⟩
  have hserial : Apart b { b with cli := { b.cli with serial := nextSerial v b + 1 } } := ⟨rfl, rfl, rfl, rfl, rfl⟩
  exact .ite hpending (.ite (.refl b) (.ite (raise_apart _ b) (hserial.trans (offer_apart ..))))

theorem lotHold_apart (v : View) (l : Level) (r : Reason) (b : Blocks) : Apart b (lotHold v l r b) := by
  unfold lotHold
  split
  · exact autoHold_apart v _ l r b
  · exact .refl b

theorem contactHold_apart (v : View) (b : Blocks) : Apart b (contactHold v b) := by
  unfold contactHold
  split
  · exact autoHold_apart v _ _ _ b
  · exact .refl b

theorem sitesHold_apart (v : View) (b : Blocks) : Apart b (sitesHold v b) := .ite (.refl b) (autoHold_apart v _ _ _ b)

theorem evaluateGate_apart (v : View) (b : Blocks) : Apart b (evaluateGate v b) := by
  have hopen : Apart b (openGate v b) := by
    unfold openGate issueGo
    simp only
    split
    · exact .ite ⟨rfl, rfl, rfl, rfl, rfl⟩ ⟨rfl, rfl, rfl, rfl, rfl⟩
    · exact ⟨rfl, rfl, rfl, rfl, rfl⟩
  have hclose : Apart b (closeGate b) := by
    unfold closeGate closeGateIw
    split <;> exact ⟨rfl, rfl, rfl, rfl, rfl⟩
  exact .ite (.ite (.refl b) hopen) (.ite hclose (.refl b))

/-! ### One unit -/

/-- A site's record after a unit at it (R138, R140). -/
def siteAfter (c : ConfigRecord) (fails : Nat) (r : SiteRec) : SiteRec :=
  if c.failLimit ≤ fails then ⟨.masked, 0, r.masks + 1⟩ else ⟨.enabled, fails, r.masks⟩

/-- The Yield Window after a result (R142). -/
def windowAfter (c : ConfigRecord) (x : UnitResult) (xs : List UnitResult) : List UnitResult :=
  if windowTrips c (pushResult c.windowSize x xs) then [] else pushResult c.windowSize x xs

/-- The trip counter after a bin (R143). -/
def tripAfter (c : ConfigRecord) (bin trip : Nat) : Nat :=
  if inPassSet c.tripBins bin then (if c.tripLimit ≤ trip + 1 then 0 else trip + 1) else trip

/-- The Step Counters after a unit (R138). -/
def countUnit (pass : BinMask) (bin : Nat) (c : StepCounters) : StepCounters :=
  if bin = 0 then c.addLost 1 else if inPassSet pass bin then c.addPass else c.addFail

theorem windowResult_apart (v : View) (x : UnitResult) (b : Blocks) :
    Apart (setIw { b.iw with window := windowAfter v.cfg x b.iw.window } b) (windowResult v x b) := by
  unfold windowResult windowAfter
  by_cases htrips : windowTrips v.cfg (pushResult v.cfg.windowSize x b.iw.window) = true
  · have hhold := lotHold_apart v .quality .yield (setIw { b.iw with window := pushResult v.cfg.windowSize x b.iw.window } b)
    simp only [htrips, if_true]
    exact ⟨hhold.sites, hhold.counters, rfl, hhold.trip, hhold.queue⟩
  · simp only [htrips]
    exact .refl _

theorem tripResult_apart (v : View) (bin : Nat) (b : Blocks) :
    Apart (setIw { b.iw with trip := tripAfter v.cfg bin b.iw.trip } b) (tripResult v bin b) := by
  have hhold := contactHold_apart v b
  unfold tripResult tripAfter
  split
  · split
    · exact ⟨hhold.sites, hhold.counters, hhold.window, rfl, hhold.queue⟩
    · exact .refl _
  · exact .refl _

theorem maskingTest_rest (v : View) (n : Nat) (b : Blocks) : (maskingTest v n b).iw.counters = b.iw.counters ∧
    (maskingTest v n b).iw.window = b.iw.window ∧ (maskingTest v n b).iw.trip = b.iw.trip ∧
    (maskingTest v n b).du.queue = b.du.queue := by
  have hmasked : ∀ r c, Apart (setSite n r b) c → c.iw.counters = b.iw.counters ∧ c.iw.window = b.iw.window ∧
      c.iw.trip = b.iw.trip ∧ c.du.queue = b.du.queue := fun r c h => ⟨h.counters, h.window, h.trip, h.queue⟩
  unfold maskingTest
  simp only
  split
  · exact hmasked _ _ (((raise_apart _ _).trans (evaluateGate_apart v _)).trans (sitesHold_apart v _))
  · exact ⟨rfl, rfl, rfl, rfl⟩

theorem siteResult_rest (n : Nat) (passed : Bool) (b : Blocks) : (siteResult n passed b).iw.counters = b.iw.counters ∧
    (siteResult n passed b).iw.window = b.iw.window ∧ (siteResult n passed b).iw.trip = b.iw.trip ∧
    (siteResult n passed b).du.queue = b.du.queue := by
  unfold siteResult
  simp only
  split <;> exact ⟨rfl, rfl, rfl, rfl⟩

/-- The unit at its site, before the Yield Window and the trip counter. -/
def atSite (v : View) (n : Nat) (passed : Bool) (c : StepCounters) (b : Blocks) : Blocks :=
  maskingTest v n (siteResult n passed (setCounters c b))

theorem atSite_rest (v : View) (n : Nat) (passed : Bool) (c : StepCounters) (b : Blocks) :
    (atSite v n passed c b).iw.counters = c ∧ (atSite v n passed c b).iw.window = b.iw.window ∧
      (atSite v n passed c b).iw.trip = b.iw.trip ∧ (atSite v n passed c b).du.queue = b.du.queue := by
  obtain ⟨hc, hw, ht, hq⟩ := maskingTest_rest v n (siteResult n passed (setCounters c b))
  obtain ⟨hc', hw', ht', hq'⟩ := siteResult_rest n passed (setCounters c b)
  exact ⟨hc.trans hc', hw.trans hw', ht.trans ht', hq.trans hq'⟩

theorem site_setSite {b : Blocks} {n : Nat} (h1 : 1 ≤ n) (hn : n ≤ b.iw.sites.length) (r : SiteRec) :
    (setSite n r b).iw.site n = r := by
  simp only [setSite, setIw, InsertionWatch.site]
  rw [List.getElem?_set_self (by omega)]
  rfl

theorem site_setSite_other {b : Blocks} {n j : Nat} (h1 : 1 ≤ n) (hj : 1 ≤ j) (hne : j ≠ n) (r : SiteRec) :
    (setSite n r b).iw.site j = b.iw.site j := by
  simp only [setSite, setIw, InsertionWatch.site]
  rw [List.getElem?_set_ne (by omega)]

theorem site_congr {b c : Blocks} (h : c.iw.sites = b.iw.sites) (n : Nat) : c.iw.site n = b.iw.site n := by
  rw [InsertionWatch.site, h, InsertionWatch.site]

theorem maskingTest_sites {v : View} {n : Nat} {b : Blocks} (hstate : (b.iw.site n).state = .enabled) :
    (maskingTest v n b).iw.sites = if v.cfg.failLimit ≤ (b.iw.site n).fails then
      (setSite n ⟨.masked, 0, (b.iw.site n).masks + 1⟩ b).iw.sites else b.iw.sites := by
  unfold maskingTest
  simp only [hstate, beq_self_eq_true, Bool.true_and, decide_eq_true_eq]
  split
  · exact (((raise_apart _ _).trans (evaluateGate_apart v _)).trans (sitesHold_apart v _)).sites
  · rfl

/-- A unit at an ENABLED site (R138, R140). -/
theorem atSite_sites {v : View} {n : Nat} {passed : Bool} {c : StepCounters} {b : Blocks} (h1 : 1 ≤ n)
    (hn : n ≤ b.iw.sites.length) (hstate : (b.iw.site n).state = .enabled) :
    (atSite v n passed c b).iw.sites =
      (setSite n (siteAfter v.cfg (if passed then 0 else (b.iw.site n).fails + 1) (b.iw.site n)) b).iw.sites := by
  have hresult : siteResult n passed (setCounters c b) = setSite n
      { b.iw.site n with fails := if passed then 0 else (b.iw.site n).fails + 1 } (setCounters c b) :=
    if_pos (beq_iff_eq.mpr hstate)
  have hsite := site_setSite (b := setCounters c b) h1 hn
    { b.iw.site n with fails := if passed then 0 else (b.iw.site n).fails + 1 }
  rw [atSite, hresult, maskingTest_sites (by rw [hsite]; exact hstate), hsite]
  have hset : ∀ r r' : SiteRec, (setSite n r (setSite n r' (setCounters c b))).iw.sites = (setSite n r b).iw.sites :=
    fun r r' => List.set_set ..
  unfold siteAfter
  by_cases hlimit : v.cfg.failLimit ≤ if passed = true then 0 else (b.iw.site n).fails + 1
  · rw [if_pos hlimit, if_pos hlimit]
    exact hset _ _
  · rw [if_neg hlimit, if_neg hlimit, ← hstate]
    rfl

theorem takeUnit_lost {v : View} {pass : BinMask} {n : Nat} {b : Blocks} :
    takeUnit v pass n 0 b = atSite v n false (b.iw.counters.addLost 1) b := rfl

theorem takeUnit_tested {v : View} {pass : BinMask} {n bin : Nat} {b : Blocks} (h : bin ≠ 0) :
    takeUnit v pass n bin b = tripResult v bin (windowResult v (if inPassSet pass bin then .pass else .fail)
      (atSite v n (inPassSet pass bin) (countUnit pass bin b.iw.counters) b)) := by
  unfold takeUnit countUnit
  rw [if_neg h, if_neg h]
  cases inPassSet pass bin <;> rfl

/-- What a tested unit leaves beside the sites. -/
theorem tested_apart (v : View) (bin : Nat) (x : UnitResult) (b : Blocks) :
    Apart (setIw { b.iw with window := windowAfter v.cfg x b.iw.window, trip := tripAfter v.cfg bin b.iw.trip } b)
      (tripResult v bin (windowResult v x b)) := by
  have hwindow := windowResult_apart v x b
  have htrip := tripResult_apart v bin (windowResult v x b)
  refine ⟨htrip.sites.trans hwindow.sites, htrip.counters.trans hwindow.counters, htrip.window.trans hwindow.window, ?_,
    htrip.queue.trans hwindow.queue⟩
  exact htrip.trip.trans (congrArg (tripAfter v.cfg bin) hwindow.trip)

theorem takeUnit_counts (v : View) (pass : BinMask) (n bin : Nat) (b : Blocks) :
    (takeUnit v pass n bin b).iw.counters = countUnit pass bin b.iw.counters ∧
      (takeUnit v pass n bin b).du.queue = b.du.queue := by
  by_cases h : bin = 0
  · subst h
    rw [takeUnit_lost]
    obtain ⟨hc, -, -, hq⟩ := atSite_rest v n false (b.iw.counters.addLost 1) b
    exact ⟨hc, hq⟩
  · rw [takeUnit_tested h]
    obtain ⟨hc, -, -, hq⟩ := atSite_rest v n (inPassSet pass bin) (countUnit pass bin b.iw.counters) b
    have happart := tested_apart v bin (if inPassSet pass bin then .pass else .fail)
      (atSite v n (inPassSet pass bin) (countUnit pass bin b.iw.counters) b)
    exact ⟨happart.counters.trans hc, happart.queue.trans hq⟩

theorem pushResult_eq {w : Nat} (h : 1 ≤ w) (x : UnitResult) (xs : List UnitResult) :
    pushResult w x xs = (xs ++ [x]).drop (xs.length + 1 - w) := by
  unfold pushResult
  split
  · rw [Nat.sub_eq_zero_of_le (by omega), List.drop_zero]
  · rw [List.drop_append_of_le_length (by omega)]

theorem windowAfter_eq {c : ConfigRecord} (h : 1 ≤ c.windowSize) (x : UnitResult) (xs w : List UnitResult)
    (hw : w = (xs ++ [x]).drop (xs.length + 1 - c.windowSize)) :
    windowAfter c x xs =
      if w.length = c.windowSize ∧ c.windowFailLimit ≤ (w.filter fun x => x == UnitResult.fail).length then [] else w := by
  rw [windowAfter, pushResult_eq h, ← hw]
  simp only [windowTrips, Bool.and_eq_true, beq_iff_eq, decide_eq_true_eq]

/-- The second part of O43: one unit at an ENABLED site. -/
theorem takeUnit_at {v : View} {pass : BinMask} {n bin : Nat} {b : Blocks} (h1 : 1 ≤ n) (hn : n ≤ b.iw.sites.length)
    (hstate : (b.iw.site n).state = .enabled) :
    (takeUnit v pass n bin b).iw.sites = (setSite n (siteAfter v.cfg
      (if bin ≠ 0 ∧ inPassSet pass bin = true then 0 else (b.iw.site n).fails + 1) (b.iw.site n)) b).iw.sites := by
  by_cases h : bin = 0
  · subst h
    rw [takeUnit_lost, atSite_sites h1 hn hstate, if_neg Bool.false_ne_true, if_neg (by simp)]
  · have happart := tested_apart v bin (if inPassSet pass bin then .pass else .fail)
      (atSite v n (inPassSet pass bin) (countUnit pass bin b.iw.counters) b)
    rw [takeUnit_tested h]
    refine (happart.sites.trans (atSite_sites h1 hn hstate)).trans ?_
    rw [if_congr (show (inPassSet pass bin = true ↔ bin ≠ 0 ∧ inPassSet pass bin = true) from
      ⟨fun hp => ⟨h, hp⟩, And.right⟩) rfl rfl]

/-! ### All units -/

/-- What the units of some sites do to the Step Counters. -/
structure Counted (pass : BinMask) (bins : BitVec 32) (ns : List Nat) (c d : StepCounters) : Prop where
  total : d.tested + d.lost = c.tested + c.lost + ns.length
  tested : d.pass + d.fail + c.tested = c.pass + c.fail + d.tested
  lost : d.lost = c.lost + (ns.filter fun k => binOf bins k = 0).length
  pass : d.pass = c.pass + (ns.filter fun k => inPassSet pass (binOf bins k)).length
  insertions : d.insertions = c.insertions
  entered : d.entered = c.entered
  pending : d.endPending = c.endPending
  lot : d.lot = c.lot
  step : d.step = c.step

theorem Counted.cons {pass : BinMask} {bins : BitVec 32} {n : Nat} {ns : List Nat} {c d : StepCounters}
    (h : Counted pass bins ns (countUnit pass (binOf bins n) c) d) : Counted pass bins (n :: ns) c d := by
  have hzero : inPassSet pass 0 = false := rfl
  by_cases h0 : binOf bins n = 0
  · rw [countUnit, if_pos h0] at h
    obtain ⟨htotal, htested, hlost, hpass, hins, hent, hpend, hlot, hstep⟩ := h
    simp only [StepCounters.addLost] at htotal htested hlost hpass
    refine ⟨?_, htested, ?_, ?_, hins, hent, hpend, hlot, hstep⟩
    · rw [List.length_cons]
      omega
    · rw [List.filter_cons_of_pos (by simpa using h0), List.length_cons]
      omega
    · rw [List.filter_cons_of_neg (by rw [h0, hzero]; exact Bool.false_ne_true)]
      exact hpass
  · rw [countUnit, if_neg h0] at h
    by_cases hp : inPassSet pass (binOf bins n) = true
    · rw [if_pos hp] at h
      obtain ⟨htotal, htested, hlost, hpass, hins, hent, hpend, hlot, hstep⟩ := h
      simp only [StepCounters.addPass] at htotal htested hlost hpass
      refine ⟨?_, ?_, ?_, ?_, hins, hent, hpend, hlot, hstep⟩
      · rw [List.length_cons]
        omega
      · omega
      · rw [List.filter_cons_of_neg (by simpa using h0)]
        exact hlost
      · rw [List.filter_cons_of_pos (by exact hp), List.length_cons]
        omega
    · rw [if_neg hp] at h
      obtain ⟨htotal, htested, hlost, hpass, hins, hent, hpend, hlot, hstep⟩ := h
      simp only [StepCounters.addFail] at htotal htested hlost hpass
      refine ⟨?_, ?_, ?_, ?_, hins, hent, hpend, hlot, hstep⟩
      · rw [List.length_cons]
        omega
      · omega
      · rw [List.filter_cons_of_neg (by simpa using h0)]
        exact hlost
      · rw [List.filter_cons_of_neg (by exact hp)]
        exact hpass

theorem takeUnits_counts (v : View) (pass : BinMask) (bins : BitVec 32) (ns : List Nat) : ∀ b : Blocks,
    Counted pass bins ns b.iw.counters (takeUnits v pass bins ns b).iw.counters ∧
      (takeUnits v pass bins ns b).du.queue = b.du.queue := by
  induction ns with
  | nil => exact fun b => ⟨⟨rfl, rfl, rfl, rfl, rfl, rfl, rfl, rfl, rfl⟩, rfl⟩
  | cons n ns ih =>
    intro b
    obtain ⟨hcount, hqueue⟩ := takeUnit_counts v pass n (binOf bins n) b
    obtain ⟨hcounts, hqueues⟩ := ih (takeUnit v pass n (binOf bins n) b)
    rw [hcount] at hcounts
    exact ⟨hcounts.cons, hqueues.trans hqueue⟩

/-! ### The sites, the Yield Window and the trip counter at the end of a command -/

/-- What R140, R142 and R143 work on. -/
def Blocks.yield (b : Blocks) : List SiteRec × List UnitResult × Nat := (b.iw.sites, b.iw.window, b.iw.trip)

theorem Apart.yield {b c : Blocks} (h : Apart b c) : c.yield = b.yield := by
  rw [Blocks.yield, h.sites, h.window, h.trip, Blocks.yield]

theorem Evolves.yield {b c : Blocks} (h : Evolves b c) : c.yield = b.yield := by
  have k := congrArg (fun x : Blocks => x.yield) h.core
  exact k

theorem foldOver_yield {α : Type} {f : List α → Blocks → Blocks} {g : α → Blocks → Blocks} (hnil : ∀ b, f [] b = b)
    (hcons : ∀ x xs b, f (x :: xs) b = f xs (g x b)) (hg : ∀ x b, (g x b).yield = b.yield) (xs : List α) :
    ∀ b, (f xs b).yield = b.yield := by
  induction xs with
  | nil => exact fun b => by rw [hnil]
  | cons x xs ih => exact fun b => by rw [hcons, ih, hg]

theorem raise_yield (n : Notice) (b : Blocks) : (raise n b).yield = b.yield := rfl

theorem reconcile_yield (v : View) (a : Bool) (b : Blocks) : (reconcile v a b).yield = b.yield := by
  have hremove : ∀ (e : QueueEntry) (c : Blocks), (removeEntry v a e c).yield = c.yield := fun e c => by
    have hlost : ∀ (x : ClaimLostCause) (d : Blocks), (reportLost e x d).yield = d.yield := fun x d => by
      unfold reportLost
      split
      · rfl
      · split <;> rfl
    have hhalt : ∀ d : Blocks, (if beforeRun e.phase then d else haltStep d).yield = d.yield := fun d => by
      split <;> rfl
    unfold removeEntry
    simp only
    split
    · exact (hlost _ _).trans (hhalt _)
    · exact hhalt _
  exact (upkeepRequest_evolves _).yield.trans
    (foldOver_yield (f := removeLost v a) (fun _ => rfl) (fun _ _ _ => rfl) (g := fun e c =>
      if stillMine v e then c else removeEntry v a e c) (fun e c => by split; exacts [rfl, hremove e c]) _ b)

theorem endSession_yield (b : Blocks) : (endSession b).yield = b.yield := by
  unfold endSession
  split <;> rfl

theorem sendFailed_yield (v : View) (body : FrameBody) (b : Blocks) : (sendFailed v body b).yield = b.yield := by
  have hhold : ∀ sn t l r, (holdSendFailed v sn t l r b).yield = b.yield := fun sn t l r => by
    cases r <;> rfl
  cases body
  case hold sn t l r => exact hhold sn t l r
  case snapBegin => exact endSession_yield b
  case snapEntry => exact endSession_yield b
  case snapEnd => exact endSession_yield b
  all_goals rfl

theorem emptySendQueue_yield (v : View) (b : Blocks) : (emptySendQueue v b).yield = b.yield :=
  foldOver_yield (f := sendFailedAll v) (fun _ => rfl) (fun _ _ _ => rfl) (fun e c => sendFailed_yield v e.body c) _ _

theorem enterOffline_yield (v : View) (b : Blocks) : (enterOffline v b).yield = b.yield := by
  refine (emptySendQueue_yield v _).trans ?_
  exact (endRequest_evolves _).yield.trans ((endSession_yield _).trans (reconcile_yield v false b))

theorem finish_yield (v : View) (b : Blocks) : (finish v b).yield = b.yield := by
  have hsettle : ∀ c, (settle v c).yield = c.yield := fun c => (settle_evolves v c).yield
  have hcomplete : ∀ c, (completeLeave v c).yield = c.yield := fun c => by
    unfold completeLeave
    split
    · exact (hsettle _).trans (enterOffline_yield v c)
    · rfl
  exact (hcomplete _).trans (hsettle b)

/-! ### The insertion is counted (R138, R139, R144) -/

theorem raiseLost_apart (c : StepCounters) : ∀ (xs : List LostClaim) (b : Blocks), Apart b (raiseLost c xs b)
  | [], b => .refl b
  | _ :: xs, b => (raise_apart _ b).trans (raiseLost_apart c xs _)

theorem enqueueTally_apart (v : View) (lot : Nat) (b : Blocks) : Apart b (enqueueTally v lot b) :=
  .ite (.refl b) (.ite (offer_apart ..) ⟨rfl, rfl, rfl, rfl, rfl⟩)

/-- The blocks at the step-end test. -/
def handedOver (b : Blocks) : Blocks :=
  raiseLost b.iw.counters b.du.lostAfterTest { b with du := { b.du with lostAfterTest := [] } }

theorem handedOver_apart (b : Blocks) : Apart b (handedOver b) :=
  Apart.trans (b := { b with du := { b.du with lostAfterTest := [] } }) ⟨rfl, rfl, rfl, rfl, rfl⟩ (raiseLost_apart ..)

theorem insertionCounted_eq (v : View) (b : Blocks) : insertionCounted v b = stepEndTest v (handedOver b) := rfl

/-- With no end pending the step-end test leaves the Step Counters (R144). -/
theorem endStep_apart {v : View} {lot : Nat} {b : Blocks} (h : b.iw.counters.endPending = false) :
    Apart (updateEntry lot b.iw.counters.step (fun e => { e with phase := .ending }) b) (endStep v lot b) := by
  have hcounters : setCounters (if b.iw.counters.endPending then b.iw.counters.balance else b.iw.counters)
      (updateEntry lot b.iw.counters.step (fun e => { e with phase := .ending }) b)
      = updateEntry lot b.iw.counters.step (fun e => { e with phase := .ending }) b := by
    rw [h]
    rfl
  rw [endStep, hcounters]
  exact enqueueTally_apart ..

theorem endStep_yield (v : View) (lot : Nat) (b : Blocks) : (endStep v lot b).yield = b.yield :=
  (enqueueTally_apart ..).yield

theorem stepEndTest_yield (v : View) (b : Blocks) : (stepEndTest v b).yield = b.yield := by
  unfold stepEndTest
  split
  · simp only
    split
    · exact endStep_yield v _ b
    · rfl
  · rfl

theorem stepEndTest_counters {v : View} {b : Blocks} (h : b.iw.counters.endPending = false) :
    (stepEndTest v b).iw.counters = b.iw.counters := by
  unfold stepEndTest
  split
  · simp only
    split
    · exact (endStep_apart h).counters
    · rfl
  · rfl

theorem stepEndTest_insertion (v : View) (b : Blocks) : (stepEndTest v b).iw.insertion = b.iw.insertion := by
  have htally : ∀ (lot : Nat) (c : Blocks), (enqueueTally v lot c).iw.insertion = c.iw.insertion := fun lot c => by
    have hoffer : ∀ body, (offer body allStations .iw false c).iw = c.iw := fun body => by
      unfold offer
      split <;> rfl
    unfold enqueueTally
    simp only
    split
    · rfl
    · split
      · rw [hoffer]
      · rfl
  unfold stepEndTest
  split
  · simp only
    split
    · exact htally _ _
    · rfl
  · rfl

/-- With the end pending and the head in run for the counters' step, the step ends and the units left are lost (R144). -/
theorem stepEndTest_ends {v : View} {b : Blocks} {h : QueueEntry} {q : List QueueEntry} (hpend : b.iw.counters.endPending = true)
    (hq : b.du.queue = h :: q) (hphase : h.phase = .running) (horphaned : h.orphaned = false)
    (hlot : b.iw.counters.lot = some h.lot) (hstep : b.iw.counters.step = h.step) :
    stepEndTest v b = endStep v h.lot b := by
  have hhead : countsRunningHead b = some h.lot := by
    simp only [countsRunningHead, hq, hlot, hphase, horphaned, hstep, beq_self_eq_true, Bool.not_false, Bool.and_self,
      if_true]
  unfold stepEndTest
  rw [hhead]
  simp only [hpend, Bool.or_true, if_true]

theorem endStep_ends {v : View} {b : Blocks} {h : QueueEntry} {q : List QueueEntry} (hpend : b.iw.counters.endPending = true)
    (hq : b.du.queue = h :: q) (hstep : b.iw.counters.step = h.step) :
    (endStep v h.lot b).iw.counters = b.iw.counters.balance ∧
      (endStep v h.lot b).inRun = some (h.lot, h.step, .ending) := by
  have hbalanced : endStep v h.lot b = enqueueTally v h.lot (setCounters b.iw.counters.balance
      (updateEntry h.lot h.step (fun e => { e with phase := .ending }) b)) := by
    rw [endStep, hpend, hstep]
    rfl
  rw [hbalanced]
  have happart := enqueueTally_apart v h.lot (setCounters b.iw.counters.balance
      (updateEntry h.lot h.step (fun e => { e with phase := .ending }) b))
  refine ⟨happart.counters, ?_⟩
  have hqueue : (enqueueTally v h.lot (setCounters b.iw.counters.balance
      (updateEntry h.lot h.step (fun e => { e with phase := .ending }) b))).du.queue
      = { h with phase := .ending } :: q.map fun e =>
        if e.lot == h.lot && e.step == h.step then { e with phase := .ending } else e := by
    rw [happart.queue]
    change (b.du.queue.map fun e => if e.lot == h.lot && e.step == h.step then { e with phase := .ending } else e) = _
    rw [hq, List.map_cons, if_pos (by simp)]
  rw [inRun_cons hqueue]
  rfl

/-! ### VERDICT and INSERTION_TIMEOUT -/

/-- The blocks after the units of a VERDICT in IN TEST. -/
def unitsTaken (v : View) (bins : BitVec 32) (m : SiteMask) (b : Blocks) : Blocks :=
  takeUnits v (passSet v b.iw.counters) bins (sitesOf m) b

theorem verdict_inTest {v : View} {bins : BitVec 32} {b : Blocks} {m : SiteMask} {n : Nat}
    (h : b.iw.insertion = .inTest m n) : verdict v bins b = insertionCounted v (endInsertion (unitsTaken v bins m b)) := by
  rw [verdict, h]
  rfl

theorem exec_verdict (s : State) (bins : BitVec 32) :
    ∃ t, exec (.verdict bins) s = .next t ∧ t.blocks = finish s.view (verdict s.view bins s.blocks) :=
  ⟨_, rfl, rfl⟩

theorem Evolves.counters {b c : Blocks} (h : Evolves b c) : c.iw.counters = b.iw.counters := by
  have k := congrArg (fun x : Blocks => x.iw.counters) h.core
  exact k

theorem verdict_counters {v : View} {bins : BitVec 32} {b : Blocks} {m : SiteMask} {n : Nat}
    (h : b.iw.insertion = .inTest m n) (hpend : b.iw.counters.endPending = false) :
    (verdict v bins b).iw.counters = { (unitsTaken v bins m b).iw.counters with
      insertions := (unitsTaken v bins m b).iw.counters.insertions + 1 } := by
  obtain ⟨hcounted, -⟩ := takeUnits_counts v (passSet v b.iw.counters) bins (sitesOf m) b
  have happart := handedOver_apart (endInsertion (unitsTaken v bins m b))
  rw [verdict_inTest h, insertionCounted_eq, stepEndTest_counters, happart.counters]
  · rfl
  · rw [happart.counters]
    exact hcounted.pending.trans hpend

/-- The blocks after the lost units of an INSERTION_TIMEOUT in IN TEST. -/
def unitsLost (m : SiteMask) (b : Blocks) : Blocks :=
  setIw { (endInsertion (setCounters (b.iw.counters.addLost (sitesOf m).length) b)).iw with halt := true }
    (endInsertion (setCounters (b.iw.counters.addLost (sitesOf m).length) b))

theorem insertionTimeout_inTest {v : View} {b : Blocks} {m : SiteMask} {n : Nat} (h : b.iw.insertion = .inTest m n) :
    insertionTimeout v b = insertionCounted v (lotHold v .operator .timeout (unitsLost m b)) := by
  rw [insertionTimeout, h]
  rfl

theorem lotHold_insertion (v : View) (l : Level) (r : Reason) (b : Blocks) :
    (lotHold v l r b).iw.insertion = b.iw.insertion := by
  have hhold : ∀ t, (autoHold v t l r b).iw.insertion = b.iw.insertion := fun t => by
    unfold autoHold keepPending enqueueHold offer
    split
    · split <;> rfl
    · split
      · rfl
      · split
        · rfl
        · simp only
          split <;> rfl
  unfold lotHold
  split
  · exact hhold _
  · rfl

theorem raiseLost_iw (c : StepCounters) : ∀ (xs : List LostClaim) (b : Blocks), (raiseLost c xs b).iw = b.iw
  | [], _ => rfl
  | _ :: xs, _ => raiseLost_iw c xs _

theorem insertionTimeout_lost {v : View} {b : Blocks} {m : SiteMask} {n : Nat} (h : b.iw.insertion = .inTest m n)
    (hpend : b.iw.counters.endPending = false) :
    (insertionTimeout v b).iw.counters = { b.iw.counters with
        lost := b.iw.counters.lost + (sitesOf m).length, insertions := b.iw.counters.insertions + 1 } ∧
      (insertionTimeout v b).yield = b.yield ∧ (insertionTimeout v b).iw.insertion = .idle := by
  have happart := (lotHold_apart v .operator .timeout (unitsLost m b)).trans (handedOver_apart _)
  rw [insertionTimeout_inTest h, insertionCounted_eq]
  refine ⟨?_, (stepEndTest_yield v _).trans happart.yield, ?_⟩
  · rw [stepEndTest_counters, happart.counters]
    · rfl
    · rw [happart.counters]
      exact hpend
  · rw [stepEndTest_insertion, handedOver, raiseLost_iw]
    exact lotHold_insertion v .operator .timeout (unitsLost m b)

/-- Settles O43. -/
theorem insertedUnitsAreCounted : Obligations.InsertedUnitsAreCounted := by
  refine ⟨fun s bins => ⟨fun m n hin hpend hl => ?_, fun m n hin => ?_, fun m n h q hin hpend hl hq hphase ho hlot hstep => ?_,
    fun hno => ?_⟩, fun v pass n bin fails b u r h1 hn hr hstate hw hu hfails => ?_, fun s m n hin hpend hl => ?_⟩
  · obtain ⟨t, ht, hblocks⟩ := exec_verdict s bins
    obtain ⟨hcounted, -⟩ := takeUnits_counts s.view (passSet s.view s.blocks.iw.counters) bins (sitesOf m) s.blocks
    have hevolves := finish_evolves s.view (verdict s.view bins s.blocks) ((verdict_inserts ..).leaving.trans hl)
    refine ⟨t, ht, ?_⟩
    rw [hblocks, hevolves.counters, verdict_counters hin hpend]
    exact ⟨hcounted.total, hcounted.tested, hcounted.lost, hcounted.pass, congrArg (· + 1) hcounted.insertions,
      hcounted.entered⟩
  · obtain ⟨t, ht, hblocks⟩ := exec_verdict s bins
    have hyield : t.blocks.yield = (unitsTaken s.view bins m s.blocks).yield := by
      rw [hblocks, finish_yield, verdict_inTest hin, insertionCounted_eq, stepEndTest_yield, (handedOver_apart _).yield]
      rfl
    simp only [Blocks.yield, Prod.mk.injEq] at hyield
    exact ⟨t, _, ht, rfl, hyield.1, hyield.2.1, hyield.2.2⟩
  · obtain ⟨t, ht, hblocks⟩ := exec_verdict s bins
    obtain ⟨hcounted, hqueue⟩ := takeUnits_counts s.view (passSet s.view s.blocks.iw.counters) bins (sitesOf m) s.blocks
    have happart := handedOver_apart (endInsertion (unitsTaken s.view bins m s.blocks))
    have hcounters : (handedOver (endInsertion (unitsTaken s.view bins m s.blocks))).iw.counters =
        { (unitsTaken s.view bins m s.blocks).iw.counters with
          insertions := (unitsTaken s.view bins m s.blocks).iw.counters.insertions + 1 } := happart.counters
    have hends : verdict s.view bins s.blocks = endStep s.view h.lot (handedOver (endInsertion
        (unitsTaken s.view bins m s.blocks))) := by
      rw [verdict_inTest hin, insertionCounted_eq]
      refine stepEndTest_ends ?_ (happart.queue.trans (hqueue.trans hq)) hphase ho ?_ ?_
      · rw [hcounters]
        exact hcounted.pending.trans hpend
      · rw [hcounters]
        exact hcounted.lot.trans hlot
      · rw [hcounters]
        exact hcounted.step.trans hstep
    obtain ⟨hbalance, hrun⟩ := endStep_ends (v := s.view) (b := handedOver (endInsertion (unitsTaken s.view bins m s.blocks)))
      (by rw [hcounters]; exact hcounted.pending.trans hpend) (happart.queue.trans (hqueue.trans hq))
      (by rw [hcounters]; exact hcounted.step.trans hstep)
    have hleaving := (verdict_inserts s.view bins s.blocks).leaving.trans hl
    have hevolves := finish_evolves s.view (verdict s.view bins s.blocks) hleaving
    obtain ⟨h', q', hq', hlot', hstep', hphase'⟩ := inRun_eq_some (finish_runs s.view hleaving (hends ▸ hrun))
    refine ⟨t, h', q', ht, hblocks ▸ hq', hlot', hstep', hphase', ?_⟩
    have htotal := hcounted.total
    have hentered := hcounted.entered
    rw [hblocks, hevolves.counters, hends, hbalance, hcounters]
    simp only [StepCounters.balance, StepCounters.remaining]
    unfold unitsTaken
    omega
  · exact exec_eq (f := fun v b => verdict v bins b) rfl (by
      unfold verdict
      split
      · next m n hin => exact absurd hin (hno m n)
      · rfl)
  · subst hr hu hfails
    have hsites := takeUnit_at (v := v) (pass := pass) (bin := bin) h1 hn hstate
    refine ⟨?_, fun j hj hne => ?_, fun h0 => ?_, fun h0 => ⟨fun w hwin => ?_, ?_⟩⟩
    · rw [site_congr hsites, site_setSite h1 hn]
      rfl
    · rw [site_congr hsites, site_setSite_other h1 hj hne]
    · subst h0
      rw [takeUnit_lost]
      obtain ⟨-, hwindow, htrip, -⟩ := atSite_rest v n false (b.iw.counters.addLost 1) b
      exact ⟨hwindow, htrip⟩
    · obtain ⟨-, hwindow, -, -⟩ := atSite_rest v n (inPassSet pass bin) (countUnit pass bin b.iw.counters) b
      rw [takeUnit_tested h0, (tested_apart ..).window]
      exact (congrArg _ hwindow).trans (windowAfter_eq hw _ _ _ hwin)
    · obtain ⟨-, -, htrip, -⟩ := atSite_rest v n (inPassSet pass bin) (countUnit pass bin b.iw.counters) b
      rw [takeUnit_tested h0, (tested_apart ..).trip]
      exact congrArg (tripAfter v.cfg bin) htrip
  · obtain ⟨hcounters, hyield, hidle⟩ := insertionTimeout_lost (v := s.view) hin hpend
    have hleaving := (insertionTimeout_inserts s.view s.blocks).leaving.trans hl
    have hevolves := finish_evolves s.view (insertionTimeout s.view s.blocks) hleaving
    have hyields := (finish_yield s.view _).trans hyield
    simp only [Blocks.yield, Prod.mk.injEq] at hyields
    refine ⟨(s.mapBlocks insertionTimeout).finish, rfl, hevolves.counters.trans hcounters, hyields.1, hyields.2.1,
      hyields.2.2, fun x k htest => ?_, rfl⟩
    have hstays := finish_idle s.view hleaving hidle
    rw [show (State.finish (s.mapBlocks insertionTimeout)).blocks = finish s.view (insertionTimeout s.view s.blocks) from rfl,
      hstays] at htest
    cases htest

end Sys2Proof.Machine
end

section
/-! The end of an own state frame: the state its signal is given in (R7, R15, R37, R39). -/

namespace Sys2Proof.Machine

theorem snapSent_state {body : FrameBody} (h : body.isState = true) (target : Nat) (b : Blocks) :
    snapSent body target b = b := by
  unfold snapSent
  split
  · split <;> simp_all [FrameBody.isState, FrameBody.kind]
  · rfl

/-- The Send Queue where an own frame has been sent (R15). -/
def LinkController.sent (lc : LinkController) : LinkController :=
  refill (lc.queue.countP fun e => e.inTx)
    { lc with tx := none, medium := .ended 0, queue := lc.queue.filter fun e => !e.inTx }

theorem LinkController.sent_tx (lc : LinkController) : lc.sent.tx = none := (refill_rest _ _).2.1

theorem sentEntry_state {t : TxFrame} (h : t.body.isState = true) (b : Blocks) :
    sentEntry t b = { b with lc := b.lc.sent } := by
  unfold sentEntry
  simp only [snapSent_state h]
  rfl

/-- The end of an own state frame: it is applied and signalled where its entry has left the Send Queue (R15, R37). -/
theorem frameEnd_own {s : State} {auth : Level} {body : FrameBody} (h : s.Hearing .own s.stationId auth body) :
    exec (.frameEnd .own) s =
      .next (applyHeard ⟨s.stationId, true, body⟩ (s.withLc s.blocks.lc.sent)).finish ∧ auth = s.config.authority := by
  generalize hr : Reception.own = r at h
  generalize hid : s.stationId = sender at h
  cases h with
  | own x sent online isState notBuffering =>
    have hsent : (s.mapBlocks fun _ b => sentEntry x b) = s.withLc s.blocks.lc.sent :=
      congrArg (fun b : Blocks => ({ s with blocks := b } : State)) (sentEntry_state isState s.blocks)
    have honline : ((s.withLc s.blocks.lc.sent).blocks.station == .offline) = false := beq_eq_false_iff_ne.mpr online
    have hphase : ((s.withLc s.blocks.lc.sent).blocks.cu.phase == .receiving) = false := beq_eq_false_iff_ne.mpr notBuffering
    refine ⟨?_, rfl⟩
    rw [exec_frameEnd, frameEnd, sent]
    simp only [ownFrameEnd, hsent, honline, Bool.false_eq_true, if_false, if_true]
    rw [hear, hearCatchUp_state _ _ isState]
    have hid : (s.withLc s.blocks.lc.sent).stationId = s.stationId := rfl
    simp only [if_true, hearState, isState, hphase, Bool.false_eq_true, if_false, hid]
  | peer _ f _ receiving reads good online isState notBuffering =>
    subst hr
    cases reads

/-- The replica and the view after an own state frame. -/
def State.applied (s : State) (body : FrameBody) : View :=
  let re := s.re.apply s.config.authority s.stationId body
  ⟨s.stationId, s.config, re.replica, re.count, re.digest⟩

/-- The signal of an own state frame. -/
def State.signal (s : State) (body : FrameBody) : Signal :=
  ⟨s.re.replica, s.stationId, true, body, takesEffect s.re.replica s.config.authority s.stationId body⟩

/-- What the end of an own state frame leaves. -/
theorem frameEnd_own_blocks {s : State} {auth : Level} {body : FrameBody} (h : s.Hearing .own s.stationId auth body) :
    ∃ t, exec (.frameEnd .own) s = .next t ∧ t.re = s.re.apply s.config.authority s.stationId body ∧
      t.blocks = finish (s.applied body)
        (signalBlocks (s.applied body) (s.signal body) { s.blocks with lc := s.blocks.lc.sent }) :=
  ⟨_, (frameEnd_own h).1, rfl, rfl⟩

end Sys2Proof.Machine
end

section
/-! What a station sends is what a station reads (O60): payloads, frames and levels (R1, R2, R5, 12.1). -/

namespace Sys2Proof.Machine

open Sys2Proof.Laws

/-! ### Payloads read back (Tables 12.2 to 12.4) -/

theorem beBytes_three (n : Nat) : beBytes 3 n = [byte (n / 65536), byte (n / 256), byte n] := by
  simp [beBytes, byte]

theorem beBytes_four (n : Nat) :
    beBytes 4 n = [byte (n / 16777216), byte (n / 65536), byte (n / 256), byte n] := by
  simp [beBytes, byte]

theorem bandOf_written (x : Band) : bandOf (byte (bandCode x)).toNat = some x := by cases x <;> rfl

theorem levelOf_written (x : Level) : levelOf (byte (levelCode x)).toNat = some x := by cases x <;> rfl

theorem reasonOf_written (x : Reason) : reasonOf (byte (reasonCode x)).toNat = some x := by cases x <;> rfl

theorem stationStateOf_written (x : StationState) : stationStateOf (byte (stationStateCode x)).toNat = some x := by
  cases x <;> rfl

theorem byteOpt_written {o : Option Nat} (h : optWf o = true) : byteOpt (optByte o) = o := by
  cases o with
  | none => rfl
  | some n =>
    simp only [optWf, Bool.and_eq_true, decide_eq_true_eq] at h
    have hn : (byte n).toNat = n := byte_toNat n h.2
    have hzero : byte n ≠ 0 := fun hz => by
      rw [hz] at hn
      change 0 = n at hn
      omega
    rw [optByte, Option.getD_some, byteOpt, if_neg hzero, hn]

/-- 256 image blocks go as 0 (Table 12.2). -/
theorem blocksOf_written {n : Nat} (hlow : 1 ≤ n) (hhigh : n ≤ 256) : blocksOf (blocksByte n) = n := by
  rcases Nat.lt_or_eq_of_le hhigh with hlt | rfl
  · have hn : (byte n).toNat = n := byte_toNat n hlt
    have hzero : byte n ≠ 0 := fun hz => by
      rw [hz] at hn
      change 0 = n at hn
      omega
    rw [blocksByte, blocksOf, if_neg hzero, hn]
  · rfl

theorem flagByte_read (x : Bool) : (flagByte x != 0) = x := by cases x <;> rfl

theorem flags_read (x y : Bool) : (flagByte x ||| (flagByte y <<< 1)).getLsbD 0 = x ∧
    (flagByte x ||| (flagByte y <<< 1)).getLsbD 1 = y := by
  cases x <;> cases y <;> decide

/-- A hold target written is four bytes that are read as itself. -/
theorem targetOf_written {t : HoldTarget} (h : t.wf = true) :
    ∃ t0 t1 t2 t3, targetBytes t = [t0, t1, t2, t3] ∧ targetOf (byte (scopeCode t)).toNat t0 t1 t2 t3 = some t := by
  cases t with
  | lot id =>
    refine ⟨_, _, _, _, beBytes_four id, congrArg (fun n => some (HoldTarget.lot n)) (beNat_four id ?_)⟩
    simpa [HoldTarget.wf] using h
  | device d =>
    refine ⟨_, _, _, _, congrArg ([0, 0] ++ ·) (beBytes_two d),
      congrArg (fun n => some (HoldTarget.device n)) (beNat_two d ?_)⟩
    simpa [HoldTarget.wf] using h
  | program p r =>
    simp only [HoldTarget.wf, Bool.and_eq_true, decide_eq_true_eq] at h
    refine ⟨_, _, _, _, congrArg (· ++ [byte r, 0]) (beBytes_two p), ?_⟩
    exact congrArg some (congr (congrArg HoldTarget.program (beNat_two p h.1)) (byte_toNat r h.2))
  | kit k =>
    exact ⟨_, _, _, _, rfl,
      congrArg (fun n => some (HoldTarget.kit n)) (byte_toNat k (by simpa [HoldTarget.wf] using h))⟩
  | station s =>
    exact ⟨_, _, _, _, rfl,
      congrArg (fun n => some (HoldTarget.station n)) (byte_toNat s (by simpa [HoldTarget.wf] using h))⟩

theorem specBytes_length (s : StepSpec) : (specBytes s).length = 12 := by
  simp [specBytes, beBytes_length]

theorem stepStateBytes_length (x : StepState) : (stepStateBytes x).length = 13 := by
  cases x <;> simp [stepStateBytes, beBytes_length]

theorem flatMap_length_const {α β : Type} {f : α → List β} {n : Nat} (h : ∀ x, (f x).length = n) (xs : List α) :
    (xs.flatMap f).length = n * xs.length := by
  induction xs with
  | nil => rfl
  | cons x xs ih => rw [List.flatMap_cons, List.length_append, ih, h, List.length_cons, Nat.mul_succ, Nat.add_comm]

/-- Step records are read back (12.1). -/
theorem specsOf_written {ss : List StepSpec} (h : ss.all StepSpec.wf = true) :
    specsOf ss.length (ss.flatMap specBytes) = some ss := by
  induction ss with
  | nil => rfl
  | cons s ss ih =>
    simp only [List.all_cons, Bool.and_eq_true, StepSpec.wf, decide_eq_true_eq] at h
    obtain ⟨⟨⟨⟨⟨hprogram, hrevision⟩, hlow⟩, hhigh⟩, hfamily⟩, hrest⟩ := h
    have hspecs := ih (by simpa using hrest)
    simp only [List.flatMap_cons, List.length_cons, specBytes, beBytes_two, beBytes_four, List.cons_append,
      List.nil_append, specsOf, specOf, bandOf_written, Option.map_some, hspecs, beNat_two _ hprogram,
      byte_toNat _ hrevision, blocksOf_written hlow hhigh, beNat_bits32, beNat_bits16, byte_toNat _ hfamily]

/-- Step states are read back (Table 12.4). -/
theorem stepStatesOf_written {xs : List StepState} (h : xs.all StepState.wf = true) :
    stepStatesOf xs.length (xs.flatMap stepStateBytes) = some xs := by
  induction xs with
  | nil => rfl
  | cons x xs ih =>
    simp only [List.all_cons, Bool.and_eq_true] at h
    have hstates := ih h.2
    have hx := h.1
    cases x <;> simp only [StepState.wf, Bool.and_eq_true, decide_eq_true_eq] at hx <;>
      simp [stepStateBytes, beBytes_two, stepStatesOf, stepStateOf, hstates, beNat_two, byte_toNat, hx]

theorem idsOf_written {ids : List Nat} (h : ids.all (fun i => i < 4294967296) = true) :
    idsOf ids.length (ids.flatMap (beBytes 4)) = some ids := by
  induction ids with
  | nil => rfl
  | cons i ids ih =>
    simp only [List.all_cons, Bool.and_eq_true, decide_eq_true_eq] at h
    simp only [List.flatMap_cons, List.length_cons, beBytes_four, List.cons_append, List.nil_append, idsOf, ih h.2,
      Option.map_some, beNat_four _ h.1]

theorem locationOf_written {x : KitLocation} (h : x.wf = true) :
    ∃ c s, locationBytes x = [c, s] ∧ locationOf c s = some x := by
  rcases x with _ | station | station
  · exact ⟨_, _, rfl, rfl⟩
  · exact ⟨_, _, rfl, congrArg (fun n => some (KitLocation.at n))
      (byte_toNat station (by simpa [KitLocation.wf] using h))⟩
  · exact ⟨_, _, rfl, congrArg (fun n => some (KitLocation.stranded n))
      (byte_toNat station (by simpa [KitLocation.wf] using h))⟩

theorem isPlanSize_of_mul {unit n : Nat} (hunit : 0 < unit) (hlow : 1 ≤ n) (hhigh : n ≤ 6) :
    isPlanSize unit (unit * n) = true := by
  simp [isPlanSize, Nat.mul_div_cancel_left _ hunit, hlow, hhigh]

/-- The record of a SNAP ENTRY is read back (Table 12.4). -/
theorem readRecord_written {r : SnapRecord} (h : r.wf = true) :
    readRecord (byte r.typeCode).toNat r.bytes = some (some r) := by
  cases r with
  | lot x =>
    simp only [SnapRecord.wf, Bool.and_eq_true, decide_eq_true_eq] at h
    obtain ⟨⟨⟨⟨⟨⟨⟨⟨hlot, hdevice⟩, hposted⟩, hallowance⟩, horigin⟩, howner⟩, hlow⟩, hhigh⟩, hspecs⟩ := h
    have hsize : isPlanSize 12 (x.specs.flatMap specBytes).length = true := by
      rw [flatMap_length_const specBytes_length]
      exact isPlanSize_of_mul (by decide) hlow hhigh
    have hcount : (byte x.specs.length).toNat = x.specs.length := byte_toNat _ (by omega)
    change readRecord 1 _ = _
    simp only [SnapRecord.bytes, headBytes, beBytes_two, beBytes_four, List.cons_append, List.nil_append, readRecord,
      hsize, if_true, hcount, specsOf_written hspecs, Option.map_some, beNat_four _ hlot, beNat_two _ hdevice,
      beNat_two _ hposted, byte_toNat _ hallowance, byte_toNat _ horigin, flags_read, byteOpt_written howner]
  | plan xs =>
    simp only [SnapRecord.wf, Bool.and_eq_true, decide_eq_true_eq] at h
    obtain ⟨⟨hlow, hhigh⟩, hstates⟩ := h
    have hlength : (planBytes xs).length = 13 * xs.length := flatMap_length_const stepStateBytes_length xs
    change readRecord 2 (planBytes xs) = _
    simp only [readRecord, hlength, isPlanSize_of_mul (unit := 13) (by decide) hlow hhigh, if_true,
      Nat.mul_div_cancel_left xs.length (n := 13) (by decide)]
    rw [planBytes, stepStatesOf_written hstates]
    rfl
  | hold x =>
    simp only [SnapRecord.wf, Bool.and_eq_true, decide_eq_true_eq] at h
    obtain ⟨t0, t1, t2, t3, hbytes, htarget⟩ := targetOf_written h.2
    change readRecord 3 _ = _
    simp only [SnapRecord.bytes, holdBytes, hbytes, List.cons_append, List.nil_append, readRecord, htarget,
      levelOf_written, reasonOf_written, byte_toNat _ h.1]
  | kit x =>
    simp only [SnapRecord.wf, Bool.and_eq_true, decide_eq_true_eq] at h
    obtain ⟨⟨⟨⟨hkit, hfamily⟩, hlocation⟩, hcount⟩, hlimit⟩ := h
    obtain ⟨c, s, hbytes, hread⟩ := locationOf_written hlocation
    change readRecord 4 _ = _
    simp only [SnapRecord.bytes, kitBytes, hbytes, beBytes_three, List.cons_append, List.nil_append, readRecord, hread,
      Option.map_some, byte_toNat _ hkit, byte_toNat _ hfamily, beNat_three _ hcount, beNat_three _ hlimit]
  | ring ids =>
    simp only [SnapRecord.wf, Bool.and_eq_true, decide_eq_true_eq] at h
    have hlength : (ids.flatMap (beBytes 4)).length = 4 * ids.length := flatMap_length_const (beBytes_length 4) ids
    have hcount : (byte ids.length).toNat = ids.length := byte_toNat _ (by omega)
    change readRecord 5 (byte ids.length :: ids.flatMap (beBytes 4)) = _
    have hfits : ((4 * ids.length) % 4 == 0 && decide ((4 * ids.length) / 4 ≤ 16)) = true := by
      simp [h.1]
    simp only [readRecord, hlength, hfits, if_true, hcount, idsOf_written h.2, Option.map_some]

/-- A content is read back from its payload by its kind (12.1). -/
theorem readBody_written {b : FrameBody} (h : b.wf = true) : readBody b.kind b.payload = some b := by
  cases b with
  | hold sn t l r =>
    obtain ⟨t0, t1, t2, t3, hbytes, htarget⟩ := targetOf_written h
    change readHold _ = _
    simp only [FrameBody.payload, hbytes, List.cons_append, List.nil_append, readHold, htarget, levelOf_written,
      reasonOf_written]
  | post p =>
    simp only [FrameBody.wf, Bool.and_eq_true, decide_eq_true_eq] at h
    obtain ⟨⟨⟨⟨⟨⟨hlot, hdevice⟩, hposted⟩, hallowance⟩, hlow⟩, hhigh⟩, hspecs⟩ := h
    have hcount : (byte p.specs.length).toNat = p.specs.length := byte_toNat _ (by omega)
    have hsize : (decide (1 ≤ p.specs.length) && decide (p.specs.length ≤ 6)
        && (p.specs.flatMap specBytes).length == 12 * p.specs.length) = true := by
      rw [flatMap_length_const specBytes_length]
      simp [hlow, hhigh]
    change readPost (postBytes p) = _
    simp only [postBytes, beBytes_two, beBytes_four, List.cons_append, List.nil_append, readPost, hcount, hsize, if_true,
      specsOf_written hspecs, beNat_four _ hlot, beNat_two _ hdevice, beNat_two _ hposted, byte_toNat _ hallowance]
  | snapEntry i r =>
    simp only [FrameBody.wf, Bool.and_eq_true, decide_eq_true_eq] at h
    change (readRecord (byte r.typeCode).toNat r.bytes).map _ = _
    rw [readRecord_written h.2, Option.map_some, byte_toNat _ h.1]
  | beacon x =>
    simp only [FrameBody.wf, Bool.and_eq_true, decide_eq_true_eq] at h
    obtain ⟨⟨⟨hlow, hhigh⟩, hdepth⟩, hfitted⟩ := h
    have hinterval : (byte x.interval).toNat = x.interval := byte_toNat _ (by omega)
    change readBeacon (beaconBytes x) = _
    simp only [beaconBytes, beBytes_four, List.cons_append, List.nil_append, readBeacon, stationStateOf_written,
      levelOf_written, bandOf_written, hinterval, hlow, hhigh, decide_true, Bool.and_self, if_true, beNat_bits32,
      byte_toNat _ hdepth, byteOpt_written hfitted, flagByte_read]
  | lift | ship | stepStart | stepTally | orphan | cede | bid | resume | withdraw | kitAdd | kitTake | kitGive
  | kitFound | kitServiced | kitRetire | catchReq | catchDefer | snapBegin | snapEnd =>
    simp only [FrameBody.wf, Bool.and_eq_true, decide_eq_true_eq] at h
    simp [FrameBody.kind, FrameBody.payload, readBody, readLift, readShip, readStep, readOrphan, readLotStep,
      readLotOnly, readKit, readCatch, readSnap, beBytes_two, beBytes_three, beBytes_four, beNat_two, beNat_three,
      beNat_four, beNat_bits32, byte_toNat, h]
  | unnamedState | unnamedEntry | unnamedBeacon => cases h

/-- A frame built from a content is judged good, as that content (R5). -/
theorem judgeFrame_built {b : FrameBody} {sender target : Nat} (h : b.wf = true) (hsender : sender < 64)
    (htarget : target < 64) : judgeFrame (buildFrame sender target b) = some b := by
  have hkind : (BitVec.ofNat 4 b.kind).toNat = b.kind := by
    cases b with
    | unnamedState | unnamedEntry | unnamedBeacon => cases h
    | _ => rfl
  have hs : (BitVec.ofNat 6 sender).toNat = sender := Nat.mod_eq_of_lt hsender
  have ht : (BitVec.ofNat 6 target).toNat = target := Nat.mod_eq_of_lt htarget
  simp only [judgeFrame, buildFrame, hkind, hs, ht, if_true, readBody_written h]

/-! ### Bits read back (R2) -/

theorem beBits_length (n v : Nat) : (beBits n v).length = n := by
  induction n with
  | zero => rfl
  | succ n ih => rw [beBits, List.length_cons, ih]

theorem bitsNat_foldl (bs : List Bool) (acc : Nat) :
    bs.foldl (fun acc b => 2 * acc + b.toNat) acc = acc * 2 ^ bs.length + bitsNat bs := by
  induction bs generalizing acc with
  | nil => simp [bitsNat]
  | cons b bs ih =>
    have hstart := ih b.toNat
    simp only [bitsNat, List.foldl_cons, Nat.mul_zero, Nat.zero_add, List.length_cons] at hstart ⊢
    rw [ih, hstart, Nat.pow_succ]
    simp only [bitsNat]
    ring

/-- A number's low bits spell it (R2). -/
theorem bitsNat_beBits (n v : Nat) : bitsNat (beBits n v) = v % 2 ^ n := by
  induction n with
  | zero => simp [beBits, bitsNat, Nat.mod_one]
  | succ n ih =>
    have h := bitsNat_foldl (beBits n v) (v.testBit n).toNat
    rw [beBits_length, ih] at h
    rw [Nat.mod_pow_succ, beBits, bitsNat, List.foldl_cons, Nat.mul_zero, Nat.zero_add, h, Nat.toNat_testBit]
    ring

theorem bytesBits_length (p : List Byte) : (bytesBits p).length = 8 * p.length :=
  flatMap_length_const (fun _ => beBits_length 8 _) p

theorem bitsBytes_bytesBits (p : List Byte) (rest : List Bool) : bitsBytes p.length (bytesBits p ++ rest) = p := by
  induction p with
  | nil => rfl
  | cons x p ih =>
    have hx : (beBits 8 x.toNat).length = 8 := beBits_length 8 _
    rw [List.length_cons, bitsBytes, bytesBits, List.flatMap_cons, List.append_assoc, List.take_left' hx,
      List.drop_left' hx, bitsNat_beBits, Nat.mod_eq_of_lt x.isLt, byte_bits]
    exact congrArg _ ih

/-- A field of `n` bits at place `k` of a run of bits is read (R2). -/
theorem bitsNat_field {pre rest : List Bool} {k n v : Nat} (hk : pre.length = k) (hv : v < 2 ^ n) :
    bitsNat (((pre ++ (beBits n v ++ rest)).drop k).take n) = v := by
  rw [List.drop_left' hk, List.take_left' (beBits_length n v), bitsNat_beBits, Nat.mod_eq_of_lt hv]

/-- The bits of a frame, and whatever follows, spell the frame (R1, R2). -/
theorem frameOfBits_frameBits (f : RxFrame) (rest : List Bool) (h : f.payload.length < 128) :
    frameOfBits (frameBits f ++ rest) = some f := by
  obtain ⟨kind, sender, target, payload, crc⟩ := f
  have hbits : frameBits ⟨kind, sender, target, payload, crc⟩ ++ rest = beBits 4 kind.toNat ++ (beBits 6 sender.toNat ++
      (beBits 6 target.toNat ++ (beBits 7 payload.length ++ (bytesBits payload ++ (beBits 16 crc.toNat ++ rest))))) := by
    simp only [frameBits, List.append_assoc]
  have hkind : bitsNat ((frameBits ⟨kind, sender, target, payload, crc⟩ ++ rest).take 4) = kind.toNat := by
    rw [hbits]
    exact bitsNat_field (pre := []) rfl kind.isLt
  have hsender : bitsNat (((frameBits ⟨kind, sender, target, payload, crc⟩ ++ rest).drop 4).take 6) = sender.toNat := by
    rw [hbits]
    exact bitsNat_field (beBits_length _ _) sender.isLt
  have htarget : bitsNat (((frameBits ⟨kind, sender, target, payload, crc⟩ ++ rest).drop 10).take 6) = target.toNat := by
    rw [hbits, ← List.append_assoc]
    exact bitsNat_field (by simp [beBits_length]) target.isLt
  have hlength : bitsNat (((frameBits ⟨kind, sender, target, payload, crc⟩ ++ rest).drop 16).take 7) = payload.length := by
    rw [hbits, ← List.append_assoc, ← List.append_assoc]
    exact bitsNat_field (by simp [beBits_length]) h
  have hpayload : bitsBytes payload.length ((frameBits ⟨kind, sender, target, payload, crc⟩ ++ rest).drop 23) = payload := by
    rw [hbits, ← List.append_assoc, ← List.append_assoc, ← List.append_assoc, List.drop_left' (by simp [beBits_length])]
    exact bitsBytes_bytesBits _ _
  have hcrc : bitsNat (((frameBits ⟨kind, sender, target, payload, crc⟩ ++ rest).drop (23 + 8 * payload.length)).take 16)
      = crc.toNat := by
    rw [hbits, ← List.append_assoc, ← List.append_assoc, ← List.append_assoc, ← List.append_assoc]
    exact bitsNat_field (by simp only [List.length_append, beBits_length, bytesBits_length]) crc.isLt
  have hwhole : ¬ (frameBits ⟨kind, sender, target, payload, crc⟩ ++ rest).length < 39 + 8 * payload.length := by
    simp only [frameBits, List.length_append, beBits_length, bytesBits_length]
    omega
  simp only [frameOfBits, hlength, if_neg hwhole, hkind, hsender, htarget, hpayload, hcrc, BitVec.ofNat_toNat,
    BitVec.setWidth_eq]

/-! ### Levels read back (R1) -/

/-- A receiver removes the stuff bits a transmitter inserts; what follows changes no bit before it. -/
theorem unstuffFrom_stuffFrom (bs rest : List Bool) : ∀ (l : Bool) (n : Nat), n ≤ 6 →
    ∃ tail, unstuffFrom l n (stuffFrom l n bs ++ rest) = bs ++ tail := by
  induction bs with
  | nil => exact fun l n _ => ⟨_, rfl⟩
  | cons b bs ih =>
    intro l n hn
    by_cases hsix : n = 6
    · subst hsix
      have hstuff : stuffFrom l 6 (b :: bs) = (!l) :: b :: stuffFrom b (if b = !l then 2 else 1) bs := if_pos rfl
      have hskip : ∀ xs, unstuffFrom l 6 ((!l) :: xs) = unstuffFrom (!l) 1 xs := fun xs => by
        rw [unstuffFrom, if_neg (by cases l <;> decide), if_pos rfl]
      rw [hstuff, List.cons_append, hskip, List.cons_append, unstuffFrom]
      by_cases hb : b = !l
      · obtain ⟨tail, htail⟩ := ih b 2 (by omega)
        rw [if_pos hb, if_neg (by omega), if_pos hb, ← hb, htail]
        exact ⟨tail, rfl⟩
      · obtain ⟨tail, htail⟩ := ih b 1 (by omega)
        rw [if_neg hb, if_neg (by omega), if_neg hb, htail]
        exact ⟨tail, rfl⟩
    · have hstuff : stuffFrom l n (b :: bs) = b :: stuffFrom b (if b = l then n + 1 else 1) bs := if_neg hsix
      rw [hstuff, List.cons_append, unstuffFrom]
      by_cases hb : b = l
      · obtain ⟨tail, htail⟩ := ih b (n + 1) (by omega)
        rw [if_pos hb, if_neg (by omega), if_pos hb, ← hb, htail]
        exact ⟨tail, rfl⟩
      · obtain ⟨tail, htail⟩ := ih b 1 (by omega)
        rw [if_neg hb, if_neg hsix, if_neg hb, htail]
        exact ⟨tail, rfl⟩

/-- Recessive levels before a frame are passed over. -/
theorem dropWhile_wireLevels (k : Nat) (f : RxFrame) (rest : List Bool) :
    List.dropWhile id (List.replicate k true ++ (wireLevels f ++ rest)) = wireLevels f ++ rest := by
  induction k with
  | zero => rfl
  | succ k ih => rw [List.replicate_succ, List.cons_append, List.dropWhile_cons_of_pos rfl, ih]

/-- A frame's levels where a start-of-frame bit is looked for are received as the frame. -/
theorem receiveLevels_of_readable {m : Medium} {bits : List Bool} {k : Nat} {f : RxFrame} {rest : List Bool}
    (hpayload : f.payload.length < 128)
    (h : readable m bits = some (List.replicate k true ++ (wireLevels f ++ rest))) :
    receiveLevels m bits = some (some f) := by
  obtain ⟨tail, htail⟩ := unstuffFrom_stuffFrom (frameBits f) rest false 1 (by decide)
  have hdrop : (readable m bits).map (List.dropWhile id)
      = some (false :: (stuffFrom false 1 (frameBits f) ++ rest)) := by
    rw [h, Option.map_some, dropWhile_wireLevels]
    rfl
  simp only [receiveLevels, hdrop, htail, frameOfBits_frameBits f tail hpayload]

/-- Recessive levels count toward idle (R1). -/
theorem afterIdle_replicate (bits : List Bool) : ∀ k m : Nat,
    afterIdle m (List.replicate k true ++ bits) =
      if k < m then afterIdle (m - k) bits else some (List.replicate (k - m) true ++ bits)
  | 0, 0 => by cases bits <;> rfl
  | 0, m + 1 => rfl
  | k + 1, 0 => rfl
  | k + 1, m + 1 => by
    have h := afterIdle_replicate bits k m
    simp only [List.replicate_succ, List.cons_append, afterIdle, if_true, h, Nat.add_lt_add_iff_right,
      Nat.add_sub_add_right]

/-- A frame behind 11 recessive bit times, counted over both, is read. -/
theorem afterIdle_of_idle {n k : Nat} (h : 11 ≤ n + k) (bits : List Bool) :
    ∃ j, afterIdle (idleRun - n) (List.replicate k true ++ bits) = some (List.replicate j true ++ bits) := by
  rw [afterIdle_replicate, if_neg (by simp only [idleRun]; omega)]
  exact ⟨_, rfl⟩

/-- A frame behind fewer is not. -/
theorem afterIdle_of_not_idle {n k : Nat} (h : n + k < 11) (f : RxFrame) :
    afterIdle (idleRun - n) (List.replicate k true ++ wireLevels f) = none := by
  obtain ⟨m, hm⟩ : ∃ m, idleRun - n - k = m + 1 := ⟨idleRun - n - k - 1, by simp only [idleRun]; omega⟩
  rw [afterIdle_replicate, if_pos (by simp only [idleRun]; omega), hm, afterIdle_wireLevels]

theorem receiveLevels_of_not_readable {m : Medium} {bits : List Bool} (h : readable m bits = none) :
    receiveLevels m bits = none := by
  simp only [receiveLevels, h, Option.map_none]

/-- Settles O60. -/
theorem framesAreReadBack : Obligations.FramesAreReadBack := by
  refine ⟨fun b => readBody_written, fun sender target b => judgeFrame_built, fun f rest hpayload => ⟨?_, ?_, ?_⟩,
    fun f n k h => ⟨?_, ?_⟩, fun f x pre post => (wireLevels_boundedRuns f).no_seven pre post⟩
  · exact receiveLevels_of_readable (k := 0) hpayload rfl
  · exact receiveLevels_of_readable (k := 0) hpayload rfl
  · intro n k h
    obtain ⟨j, hj⟩ := afterIdle_of_idle h (wireLevels f ++ rest)
    rw [List.append_assoc]
    exact ⟨receiveLevels_of_readable hpayload hj, receiveLevels_of_readable hpayload hj⟩
  · exact receiveLevels_of_not_readable (afterIdle_of_not_idle h f)
  · exact receiveLevels_of_not_readable (afterIdle_of_not_idle h f)

end Sys2Proof.Machine
end

section
/-! The release records and their check (R163 to R166): O37. -/

namespace Sys2Proof.Machine

/-! ### The records -/

section
variable {pre post : List ReleaseRec} {R : ReleaseRec} {lot : Nat}

theorem release_between (hR : R.lot = lot) (hpre : ∀ x ∈ pre, x.lot ≠ lot) (b : Blocks) :
    (setReleases (pre ++ R :: post) b).du.release? lot = some R := by
  change (pre ++ R :: post).find? (fun r => r.lot == lot) = some R
  rw [List.find?_append, List.find?_eq_none.mpr fun x hx => by simpa using hpre x hx]
  simp [hR]

theorem updateRelease_between (hR : R.lot = lot) (hothers : ∀ x ∈ pre ++ post, x.lot ≠ lot)
    (f : ReleaseRec → ReleaseRec) (b : Blocks) :
    updateRelease lot f (setReleases (pre ++ R :: post) b) = setReleases (pre ++ f R :: post) b := by
  have hsame : ∀ xs : List ReleaseRec, (∀ x ∈ xs, x.lot ≠ lot) →
      xs.map (fun r => if r.lot == lot then f r else r) = xs := fun xs hxs =>
    (List.map_congr_left (g := id) fun x hx => by simp [hxs x hx]).trans (List.map_id xs)
  change setReleases ((pre ++ R :: post).map fun r => if r.lot == lot then f r else r) _ = _
  rw [List.map_append, List.map_cons, hsame pre fun x hx => hothers x (List.mem_append_left _ hx),
    hsame post fun x hx => hothers x (List.mem_append_right _ hx)]
  simp only [hR, beq_self_eq_true, if_true]
  rfl

/-- The record of a lot, its own or a fresh one, among those of other lots. -/
theorem ensureRelease_between (hR : R.lot = lot) (hothers : ∀ x ∈ pre ++ post, x.lot ≠ lot) {b : Blocks}
    (h : b.du.releases = pre ++ R :: post ∨ b.du.releases = pre ∧ post = [] ∧ R = ⟨lot, false, false, false⟩) :
    ensureRelease lot b = setReleases (pre ++ R :: post) b := by
  have hpre : ∀ x ∈ pre, x.lot ≠ lot := fun x hx => hothers x (List.mem_append_left _ hx)
  rcases h with hown | ⟨hnone, rfl, rfl⟩
  · have hb : b = setReleases (pre ++ R :: post) b := by rw [← hown]; rfl
    have hfind := release_between (post := post) hR hpre b
    rw [← hb] at hfind ⊢
    simp only [ensureRelease, hfind]
  · have hfind : b.du.release? lot = none := by
      rw [DispatchUnit.release?, hnone]
      exact List.find?_eq_none.mpr fun x hx => by simpa using hpre x hx
    simp only [ensureRelease, hfind, hnone]

end

theorem confirmedOk_of_complete {l : LotRec} (h : l.complete = true) :
    confirmedOk l = (!l.holdHistory || l.confirmed) := by
  rw [confirmedOk, LotRec.confirmPresent, h]
  cases l.holdHistory <;> rfl

/-! ### The check of one lot, by the first of its cases (R165, R166) -/

section
variable {v : View} {b : Blocks} {l : LotRec} {R : ReleaseRec} {pre post : List ReleaseRec}

/-- The records where that of the lot is `R`. -/
theorem checkOwned_lost (hR : R.lot = l.lot) (hothers : ∀ x ∈ pre ++ post, x.lot ≠ l.lot)
    (hensure : ensureRelease l.lot b = setReleases (pre ++ R :: post) b) (hlost : l.lostAllowance < l.totalLost) :
    checkOwned v l b = if R.countHoldRaised then setReleases (pre ++ { R with waitingReported := false } :: post) b
      else autoHold v (.lot l.lot) .quality .count
        (setReleases (pre ++ { R with waitingReported := false, countHoldRaised := true } :: post) b) := by
  have hloss : lossAllowed l = false := decide_eq_false (Nat.not_le.mpr hlost)
  have hpre : ∀ x ∈ pre, x.lot ≠ l.lot := fun x hx => hothers x (List.mem_append_left _ hx)
  rw [checkOwned, hensure]
  simp only [hloss, Bool.not_false, if_true, notWaiting, updateRelease_between hR hothers]
  rw [countHold, release_between (lot := l.lot) (by exact hR) hpre,
    updateRelease_between (R := { R with waitingReported := false }) (by exact hR) hothers]

theorem checkOwned_aside (hR : R.lot = l.lot) (hothers : ∀ x ∈ pre ++ post, x.lot ≠ l.lot)
    (hensure : ensureRelease l.lot b = setReleases (pre ++ R :: post) b) (hlost : l.totalLost ≤ l.lostAllowance)
    (haside : l.suspended = true ∨ v.rep.coveredLot l = true) :
    checkOwned v l b = setReleases (pre ++ { R with waitingReported := false } :: post) b := by
  have hloss : lossAllowed l = true := decide_eq_true hlost
  have hor : (l.suspended || v.rep.coveredLot l) = true := by simpa using haside
  rw [checkOwned, hensure]
  simp only [hloss, Bool.not_true, Bool.false_eq_true, if_false, hor, if_true, notWaiting,
    updateRelease_between hR hothers]

theorem checkOwned_ships (hR : R.lot = l.lot) (hothers : ∀ x ∈ pre ++ post, x.lot ≠ l.lot)
    (hensure : ensureRelease l.lot b = setReleases (pre ++ R :: post) b) (hlost : l.totalLost ≤ l.lostAllowance)
    (hsuspended : l.suspended = false) (hcovered : v.rep.coveredLot l = false) (hok : confirmedOk l = true) :
    checkOwned v l b = if R.shipStanding then setReleases (pre ++ { R with waitingReported := false } :: post) b
      else offer (.ship l.lot l.shipQuantity) allStations .du false
        (setReleases (pre ++ { R with waitingReported := false, shipStanding := true } :: post) b) := by
  have hloss : lossAllowed l = true := decide_eq_true hlost
  have hpre : ∀ x ∈ pre, x.lot ≠ l.lot := fun x hx => hothers x (List.mem_append_left _ hx)
  rw [checkOwned, hensure]
  simp only [hloss, Bool.not_true, Bool.false_eq_true, if_false, hsuspended, hcovered, Bool.or_self, hok, if_true,
    notWaiting, updateRelease_between hR hothers]
  rw [enqueueShip, release_between (lot := l.lot) (by exact hR) hpre,
    updateRelease_between (R := { R with waitingReported := false }) (by exact hR) hothers]

theorem checkOwned_waits (hR : R.lot = l.lot) (hothers : ∀ x ∈ pre ++ post, x.lot ≠ l.lot)
    (hensure : ensureRelease l.lot b = setReleases (pre ++ R :: post) b) (hlost : l.totalLost ≤ l.lostAllowance)
    (hsuspended : l.suspended = false) (hcovered : v.rep.coveredLot l = false) (hok : confirmedOk l = false) :
    checkOwned v l b = if R.waitingReported then setReleases (pre ++ R :: post) b
      else raise .releaseWaiting (setReleases (pre ++ { R with waitingReported := true } :: post) b) := by
  have hloss : lossAllowed l = true := decide_eq_true hlost
  have hpre : ∀ x ∈ pre, x.lot ≠ l.lot := fun x hx => hothers x (List.mem_append_left _ hx)
  rw [checkOwned, hensure]
  simp only [hloss, Bool.not_true, Bool.false_eq_true, if_false, hsuspended, hcovered, Bool.or_self, hok]
  rw [releaseWaiting, release_between hR hpre, updateRelease_between hR hothers]
  obtain ⟨lot, reported, raised, standing⟩ := R
  cases reported <;> rfl

end

/-! ### The records that stand (R163) -/

theorem pruneReleases_releases (v : View) : ∀ (rs : List ReleaseRec) (b : Blocks), (pruneReleases v rs b).du.releases =
    b.du.releases.filter fun x => ownsComplete v x.lot || rs.all fun r => r.lot != x.lot
  | [], b => by simp [pruneReleases]
  | r :: rs, b => by
    rw [pruneReleases, pruneReleases_releases v rs]
    by_cases howned : ownsComplete v r.lot = true
    · rw [if_pos howned]
      refine List.filter_congr fun x _ => ?_
      by_cases hx : r.lot = x.lot
      · simp [← hx, howned]
      · have hne : (r.lot != x.lot) = true := bne_iff_ne.mpr hx
        simp only [List.all_cons, hne, Bool.true_and]
    · have hfilter : ∀ d : Blocks, d.du.releases = b.du.releases.filter (fun x => x.lot != r.lot) →
          d.du.releases.filter (fun x => ownsComplete v x.lot || rs.all fun r => r.lot != x.lot)
            = b.du.releases.filter fun x => ownsComplete v x.lot || (r :: rs).all fun r => r.lot != x.lot := fun d hd => by
        rw [hd, List.filter_filter]
        refine List.filter_congr fun x _ => ?_
        by_cases hx : r.lot = x.lot
        · have hnot : ownsComplete v r.lot = false := by simpa using howned
          simp [← hx, hnot]
        · have hne : (r.lot != x.lot) = true := bne_iff_ne.mpr hx
          have hback : (x.lot != r.lot) = true := bne_iff_ne.mpr fun he => hx he.symm
          simp only [List.all_cons, hne, hback, Bool.true_and, Bool.and_true]
      rw [if_neg howned]
      refine hfilter _ ?_
      split <;> rfl

/-- After the removal every record is of a COMPLETE lot owned here. -/
theorem mem_prunedReleases {v : View} {b : Blocks} {x : ReleaseRec} :
    x ∈ (pruneReleases v b.du.releases b).du.releases ↔ x ∈ b.du.releases ∧ ownsComplete v x.lot = true := by
  rw [pruneReleases_releases, List.mem_filter, and_congr_right_iff]
  intro hx
  simp only [Bool.or_eq_true, List.all_eq_true, bne_iff_ne]
  exact or_iff_left fun hall => hall x hx rfl

/-- A lot has a release record. -/
def Blocks.recorded (b : Blocks) (lot : Nat) : Prop := lot ∈ b.du.releases.map ReleaseRec.lot

theorem recorded_iff (b : Blocks) (lot : Nat) : b.recorded lot ↔ ∃ R ∈ b.du.releases, R.lot = lot := List.mem_map

theorem updateRelease_recorded {lot : Nat} {f : ReleaseRec → ReleaseRec} (hf : ∀ r, (f r).lot = r.lot) (b : Blocks) :
    (updateRelease lot f b).du.releases.map ReleaseRec.lot = b.du.releases.map ReleaseRec.lot := by
  change (b.du.releases.map _).map _ = _
  rw [List.map_map]
  refine List.map_congr_left fun r _ => ?_
  simp only [Function.comp]
  split
  · exact hf r
  · rfl

theorem Evolves.releases {b c : Blocks} (h : Evolves b c) : c.du.releases = b.du.releases := by
  have hcore := congrArg (fun x : Blocks => x.du.releases) h.core
  exact hcore

theorem offer_releases (body : FrameBody) (t : Nat) (o : Owner) (host : Bool) (b : Blocks) :
    (offer body t o host b).du.releases = b.du.releases := by
  unfold offer
  split <;> rfl

theorem autoHold_releases (v : View) (t : HoldTarget) (l : Level) (r : Reason) (b : Blocks) :
    (autoHold v t l r b).du.releases = b.du.releases := by
  unfold autoHold
  split
  · unfold keepPending
    split <;> rfl
  · split
    · rfl
    · split
      · rfl
      · exact offer_releases ..

/-- The check of a lot leaves records of the same lots and its own. -/
theorem checkOwned_recorded (v : View) (l : LotRec) (b : Blocks) (lot : Nat) :
    (checkOwned v l b).recorded lot ↔ b.recorded lot ∨ l.lot = lot := by
  have hensure : (ensureRelease l.lot b).recorded lot ↔ b.recorded lot ∨ l.lot = lot := by
    unfold ensureRelease
    split
    · next r hr =>
      have hmem : b.recorded l.lot := (recorded_iff ..).mpr
        ⟨r, List.mem_of_find?_eq_some hr, by simpa using List.find?_some hr⟩
      exact ⟨.inl, fun h => h.elim id fun he => he ▸ hmem⟩
    · simp only [Blocks.recorded, setReleases, List.map_append, List.mem_append, List.map_cons, List.map_nil,
        List.mem_singleton, eq_comm]
  have hnot : ∀ c, (notWaiting l.lot c).du.releases.map ReleaseRec.lot = c.du.releases.map ReleaseRec.lot :=
    fun c => updateRelease_recorded (by exact fun _ => rfl) c
  have hcount : ∀ c, (countHold v l.lot c).du.releases.map ReleaseRec.lot = c.du.releases.map ReleaseRec.lot := fun c => by
    unfold countHold
    split
    · split
      · rfl
      · rw [autoHold_releases]
        exact updateRelease_recorded (by exact fun _ => rfl) c
    · rfl
  have hship : ∀ c, (enqueueShip l c).du.releases.map ReleaseRec.lot = c.du.releases.map ReleaseRec.lot := fun c => by
    unfold enqueueShip
    split
    · split
      · rfl
      · rw [offer_releases]
        exact updateRelease_recorded (by exact fun _ => rfl) c
    · rfl
  have hwaits : ∀ c, (releaseWaiting l.lot c).du.releases.map ReleaseRec.lot = c.du.releases.map ReleaseRec.lot := fun c => by
    unfold releaseWaiting
    split
    · rw [(raiseIf_evolves _ _ _).releases]
      exact updateRelease_recorded (by exact fun _ => rfl) c
    · rfl
  rw [← hensure, Blocks.recorded, Blocks.recorded, checkOwned]
  split
  · rw [hcount, hnot]
  · split
    · rw [hnot]
    · split
      · rw [hship, hnot]
      · rw [hwaits]

theorem checkLots_recorded (v : View) (lot : Nat) : ∀ (ls : List LotRec) (b : Blocks),
    (checkLots v ls b).recorded lot ↔ b.recorded lot ∨ ∃ l ∈ ls, l.ownedBy v.id = true ∧ l.lot = lot
  | [], b => by simp [checkLots]
  | l :: ls, b => by
    rw [checkLots, checkLots_recorded v lot ls]
    split
    · next h => simp only [checkOwned_recorded, List.mem_cons, exists_eq_or_imp, h, true_and, or_assoc]
    · next h => simp only [List.mem_cons, exists_eq_or_imp, h, Bool.false_eq_true, false_and, false_or]

/-- The lot of an ID, where IDs rise. -/
theorem lot?_eq_some_iff {r : Replica} (h : rising (r.lots.map LotRec.lot) = true) {lot : Nat} {l : LotRec} :
    r.lot? lot = some l ↔ l ∈ r.lots ∧ l.lot = lot := by
  have hfirst : ∀ ls : List LotRec, (ls.map LotRec.lot).Pairwise (· < ·) → l ∈ ls → l.lot = lot →
      ls.find? (fun x => x.lot == lot) = some l := by
    intro ls
    induction ls with
    | nil => exact fun _ hl => nomatch hl
    | cons x xs ih =>
      intro hrising hl hlot
      obtain ⟨hx, hxs⟩ := List.pairwise_cons.mp hrising
      rcases List.mem_cons.mp hl with rfl | hmem
      · rw [List.find?_cons_of_pos (by simp [hlot])]
      · have hlt := hx _ (List.mem_map_of_mem hmem)
        rw [List.find?_cons_of_neg (by simp; omega), ih hxs hmem hlot]
  exact ⟨fun hl => ⟨List.mem_of_find?_eq_some hl, by simpa using List.find?_some hl⟩,
    fun hl => hfirst _ ((rising_iff _).mp h) hl.1 hl.2⟩

/-- A COMPLETE lot whose release owner is a station. -/
theorem ownedBy_iff (l : LotRec) (n : Nat) : l.ownedBy n = true ↔ l.complete = true ∧ l.releaseOwner = some n := by
  simp [LotRec.ownedBy]

/-- Where they run, the checks leave a record for exactly the COMPLETE lots owned here (R163). -/
theorem releaseChecks_recorded {v : View} {b : Blocks} {lot : Nat} (hworking : isWorking b.station = true)
    (hrising : rising (v.rep.lots.map LotRec.lot) = true) :
    (releaseChecks v b).recorded lot ↔
      ∃ l, v.rep.lot? lot = some l ∧ l.complete = true ∧ l.releaseOwner = some v.id := by
  have howns : ownsComplete v lot = true ↔ ∃ l, v.rep.lot? lot = some l ∧ l.ownedBy v.id = true := by
    unfold ownsComplete
    split
    · next l hl => simp [hl]
    · next hl => simp [hl]
  have hpruned : (pruneReleases v b.du.releases b).recorded lot → ∃ l, v.rep.lot? lot = some l ∧ l.ownedBy v.id = true := by
    intro h
    obtain ⟨R, hR, rfl⟩ := (recorded_iff ..).mp h
    exact howns.mp (mem_prunedReleases.mp hR).2
  simp only [← ownedBy_iff]
  rw [releaseChecks, if_pos hworking, checkLots_recorded]
  constructor
  · rintro (h | ⟨l, hl, howned, rfl⟩)
    · exact hpruned h
    · exact ⟨l, (lot?_eq_some_iff hrising).mpr ⟨hl, rfl⟩, howned⟩
  · rintro ⟨l, hl, howned⟩
    obtain ⟨hmem, hlot⟩ := (lot?_eq_some_iff hrising).mp hl
    exact .inr ⟨l, hmem, howned, hlot⟩

/-! ### A state frame heard -/

/-- The end of a frame by which a state frame is heard applies it to the state that the Presence Unit leaves (R7, R37). -/
theorem frameEnd_applies {s : State} {r : Reception} {sender : Nat} {auth : Level} {body : FrameBody}
    (h : s.Hearing r sender auth body) :
    ∃ (f : HeardFrame) (s' : State), exec (.frameEnd r) s = .next (applyHeard f s').finish ∧
      s'.stationId = s.stationId ∧ (s.blocks.du.leaving = false → s'.blocks.du.leaving = false) := by
  cases h with
  | own x sent online isState notBuffering =>
    have hown := (frameEnd_own (.own x sent online isState notBuffering)).1
    exact ⟨_, _, hown, rfl, fun hl => hl⟩
  | peer _ f _ receiving reads good online isState notBuffering =>
    have hlc : ({ s.blocks.lc with tx := none, medium := .ended 0 } : LinkController)
        = { s.blocks.lc with medium := .ended 0 } := by rw [← receiving]
    have hstart : (s.mapBlocks fun _ b => endTx (mediumAfter (some f) r) b) = s.ended := congrArg s.withLc hlc
    have honline : (s.ended.blocks.station == .offline) = false := beq_eq_false_iff_ne.mpr online
    have hbody : ∀ c, (heardAs f body).body ≠ .beacon c := fun c hc => by
      rw [show body = .beacon c from hc] at isState
      exact absurd isState Bool.false_ne_true
    have hphase : ((s.ended.mapBlocks fun v b => hearPeer v (heardAs f body) b).blocks.cu.phase == .receiving) = false := by
      rw [State.mapBlocks_blocks, hearPeer_cu _ _ _ hbody]
      exact beq_eq_false_iff_ne.mpr notBuffering
    refine ⟨⟨f.sender.toNat, false, body⟩, s.ended.mapBlocks fun v b => hearPeer v (heardAs f body) b, ?_, rfl,
      fun hl => ?_⟩
    case refine_2 =>
      rw [State.mapBlocks_blocks]
      exact hearPeer_leaving _ _ _ hl
    rw [exec_frameEnd, frameEnd_received receiving reads]
    simp only [peerFrameEnd, hstart, good, honline, Bool.false_eq_true, if_false]
    change Host.Outcome.next (hear (heardAs f body) s.ended).finish = _
    have hstate : (heardAs f body).body.isState = true := isState
    rw [hear_peer _ _ rfl, hearCatchUp_state _ _ hstate, hearState, if_pos hstate]
    simp only [hphase, Bool.false_eq_true, if_false]
    rfl

theorem applyHeard_blocks (f : HeardFrame) (s : State) : ∃ b, (applyHeard f s).blocks =
    markDue (releaseChecks (applyHeard f s).view b) := ⟨_, rfl⟩

/-- A heard state frame leaves a record for exactly the COMPLETE lots owned here (R164). -/
theorem frameEnd_recorded {s : State} {r : Reception} {sender : Nat} {auth : Level} {body : FrameBody}
    (h : s.Hearing r sender auth body) (hinv : s.replicaInv) (hleaving : s.blocks.du.leaving = false) :
    ∃ t, exec (.frameEnd r) s = .next t ∧ (isWorking t.blocks.station = true → ∀ lot, (t.blocks.recorded lot ↔
      ∃ l, t.re.replica.lot? lot = some l ∧ l.complete = true ∧ l.releaseOwner = some t.stationId)) := by
  obtain ⟨f, s', hexec, hid, hl⟩ := frameEnd_applies h
  obtain ⟨t, ht, -, hkeeps⟩ := exec_preserves (.frameEnd r) s
  obtain ⟨hfloor, hcopy⟩ := (replicaInv_iff s).mp hinv
  have htfloor : t.FloorOk := hkeeps.floor hcopy hfloor
  have heq : t = (applyHeard f s').finish := Host.Outcome.next.inj (ht.symm.trans hexec)
  have hevolves : Evolves (applyHeard f s').blocks t.blocks := by
    rw [heq]
    exact State.finish_evolves _ ((applyHeard_attends f s').leaving (hl hleaving))
  have hview : (applyHeard f s').view.rep = t.re.replica ∧ (applyHeard f s').view.id = t.stationId := by
    rw [heq]
    exact ⟨rfl, rfl⟩
  obtain ⟨b, hb⟩ := applyHeard_blocks f s'
  refine ⟨t, ht, fun hworking lot => ?_⟩
  have hstation : b.station = t.blocks.station := by
    rw [hevolves.aside.station, hb]
    exact (releaseChecks_reoffers _ b).station.symm
  have hrecorded : t.blocks.recorded lot ↔ (releaseChecks (applyHeard f s').view b).recorded lot := by
    rw [Blocks.recorded, hevolves.releases, hb]
    rfl
  rw [hrecorded, releaseChecks_recorded (hstation ▸ hworking) (by rw [hview.1, rising_iff]; exact htfloor.1.lots),
    hview.1, hview.2]

/-- Settles O37. -/
theorem releaseCheckTestsTheLot : Obligations.ReleaseCheckTestsTheLot := by
  refine ⟨fun v b l R pre post put hrec hR hothers hcomplete hput => ?_, fun v b hidle => ?_,
    fun v b lot hworking hrising => ?_, fun s r sender auth body h hinv hleaving => ?_⟩
  · have hensure := ensureRelease_between hR hothers hrec
    obtain rfl : put = fun R' => setReleases (pre ++ R' :: post) b := funext hput
    refine ⟨fun hlost => checkOwned_lost hR hothers hensure hlost,
      fun hlost haside => checkOwned_aside hR hothers hensure hlost haside,
      fun hlost hsuspended hcovered hor => ?_, fun hlost hsuspended hcovered hheld hunconfirmed => ?_⟩
    · have hok : confirmedOk l = true := by
        rw [confirmedOk_of_complete hcomplete]
        rcases hor with h | h <;> simp [h]
      rw [checkOwned_ships hR hothers hensure hlost hsuspended hcovered hok]
      refine ⟨fun hstands => by rw [if_pos hstands], fun hnot y st kit e p f lo i hlast hstate => ?_⟩
      have hquantity : l.shipQuantity = p := by
        simp only [LotRec.shipQuantity, hlast, hstate]
        rfl
      rw [hnot, if_neg (by decide), hquantity]
      by_cases haccepts : acceptsFrames b.station = true
      · rw [offer, if_pos (by exact haccepts), if_pos haccepts]
        rfl
      · rw [offer, if_neg (by exact haccepts), if_neg haccepts]
        rfl
    · exact checkOwned_waits hR hothers hensure hlost hsuspended hcovered
        (by rw [confirmedOk_of_complete hcomplete, hheld, hunconfirmed]; rfl)
  · rw [releaseChecks, hidle]
    rfl
  · rw [← recorded_iff]
    exact releaseChecks_recorded hworking hrising
  · obtain ⟨t, ht, hrecorded⟩ := frameEnd_recorded h hinv hleaving
    exact ⟨t, ht, fun hworking lot => (recorded_iff ..).symm.trans (hrecorded hworking lot)⟩

end Sys2Proof.Machine
end

section
/-! Reconcile (R88): what it keeps of the Dispatch Queue, what it reports of a removed entry, and the steps the replica
shows after a frame. -/

namespace Sys2Proof.Machine

/-! ### One entry removed -/

/-- The blocks once an entry has left the queue, before its loss is reported (R88). -/
def dropEntry (e : QueueEntry) (b : Blocks) : Blocks :=
  let b := markDue { b with du := { b.du with
    queue := b.du.queue.filter fun x => !(x.lot == e.lot && x.step == e.step) } }
  let b := withdrawFrame (.cede e.lot e.step) (withdrawAll (isStartOf e.lot e.step) b)
  if beforeRun e.phase then b else haltStep b

theorem removeEntry_lost {v : View} {a : Bool} {e : QueueEntry} {c : ClaimLostCause} (h : lostCause v a e = some c)
    (b : Blocks) : removeEntry v a e b = reportLost e c (dropEntry e b) := by
  simp only [removeEntry, h]
  rfl

theorem removeEntry_ended {v : View} {a : Bool} {e : QueueEntry} (h : lostCause v a e = none) (b : Blocks) :
    removeEntry v a e b = dropEntry e b := by
  simp only [removeEntry, h]
  rfl

theorem dropEntry_rest (e : QueueEntry) (b : Blocks) : (dropEntry e b).cli = b.cli ∧ (dropEntry e b).hr = b.hr ∧
    (dropEntry e b).iw.counters = b.iw.counters ∧ (dropEntry e b).iw.insertion = b.iw.insertion ∧
    (dropEntry e b).du.lostAfterTest = b.du.lostAfterTest ∧
    (dropEntry e b).du.queue = b.du.queue.filter fun x => !(x.lot == e.lot && x.step == e.step) := by
  unfold dropEntry
  simp only
  split <;> exact ⟨rfl, rfl, rfl, rfl, rfl, rfl⟩

theorem reportLost_rest (e : QueueEntry) (c : ClaimLostCause) (b : Blocks) :
    (reportLost e c b).du.queue = b.du.queue ∧ (reportLost e c b).hr = b.hr := by
  unfold reportLost
  split
  · exact ⟨rfl, rfl⟩
  · split <;> exact ⟨rfl, rfl⟩

theorem removeEntry_rest (v : View) (a : Bool) (e : QueueEntry) (b : Blocks) : (removeEntry v a e b).hr = b.hr ∧
    (removeEntry v a e b).du.queue = b.du.queue.filter fun x => x.key != e.key := by
  obtain ⟨-, hhr, -, -, -, hqueue⟩ := dropEntry_rest e b
  have hkey : (b.du.queue.filter fun x => !(x.lot == e.lot && x.step == e.step)) =
      b.du.queue.filter fun x => x.key != e.key := rfl
  cases h : lostCause v a e with
  | some c =>
    rw [removeEntry_lost h, (reportLost_rest ..).1, (reportLost_rest ..).2]
    exact ⟨hhr, hqueue.trans hkey⟩
  | none =>
    rw [removeEntry_ended h]
    exact ⟨hhr, hqueue.trans hkey⟩

/-! ### The queue after reconcile -/

theorem removeLost_rest (v : View) (a : Bool) : ∀ (es : List QueueEntry) (b : Blocks), (removeLost v a es b).hr = b.hr ∧
    (removeLost v a es b).du.queue = b.du.queue.filter fun x => stillMine v x || es.all fun e => x.key != e.key
  | [], b => by simp [removeLost]
  | e :: es, b => by
    rw [removeLost]
    by_cases hmine : stillMine v e = true
    · obtain ⟨hhr, hqueue⟩ := removeLost_rest v a es b
      rw [if_pos hmine]
      refine ⟨hhr, hqueue.trans (List.filter_congr fun x _ => ?_)⟩
      rw [stillMine_eq_shows] at hmine ⊢
      by_cases hx : x.key = e.key
      · simp [hx, hmine]
      · simp only [List.all_cons, bne_iff_ne.mpr hx, Bool.true_and]
    · obtain ⟨hhr, hqueue⟩ := removeLost_rest v a es (removeEntry v a e b)
      obtain ⟨khr, kqueue⟩ := removeEntry_rest v a e b
      rw [if_neg hmine]
      refine ⟨hhr.trans khr, ?_⟩
      rw [hqueue, kqueue, List.filter_filter]
      refine List.filter_congr fun x _ => ?_
      rw [stillMine_eq_shows] at hmine ⊢
      by_cases hx : x.key = e.key
      · simp [hx, hmine]
      · simp only [List.all_cons, bne_iff_ne.mpr hx, Bool.true_and, Bool.and_true]

theorem removeLost_queue (v : View) (a : Bool) (b : Blocks) :
    (removeLost v a b.du.queue b).du.queue = b.du.queue.filter (stillMine v) := by
  rw [(removeLost_rest v a _ b).2]
  refine List.filter_congr fun x hx => ?_
  have hself : (b.du.queue.all fun e => x.key != e.key) = false := by
    rw [List.all_eq_false]
    exact ⟨x, hx, by simp⟩
  rw [hself, Bool.or_false]

theorem endRequest_rest (b : Blocks) : (endRequest b).du = b.du ∧ (endRequest b).cli = b.cli := by
  unfold endRequest
  split <;> exact ⟨rfl, rfl⟩

theorem upkeepRequest_rest (b : Blocks) : (upkeepRequest b).du = b.du ∧ (upkeepRequest b).cli = b.cli := by
  unfold upkeepRequest
  split
  · split
    · split
      · exact ⟨rfl, rfl⟩
      · exact endRequest_rest b
    · exact endRequest_rest b
  · exact ⟨rfl, rfl⟩

/-- Reconcile keeps the entries whose step the replica shows as this station's, in their order (R88). -/
theorem reconcile_queue (v : View) (a : Bool) (b : Blocks) :
    (reconcile v a b).du.queue = b.du.queue.filter (stillMine v) := by
  rw [reconcile, (upkeepRequest_rest _).1, removeLost_queue]

/-- A queue that is all this station's stays. -/
theorem reconcile_mine {v : View} {b : Blocks} (a : Bool) (h : ∀ e ∈ b.du.queue, stillMine v e = true) :
    (reconcile v a b).du.queue = b.du.queue := by
  rw [reconcile_queue, List.filter_eq_self]
  exact h

/-- A removed entry that is the only one. -/
theorem reconcile_single {v : View} {a : Bool} {b : Blocks} {e : QueueEntry} (hq : b.du.queue = [e])
    (h : stillMine v e = false) : reconcile v a b = upkeepRequest (removeEntry v a e b) := by
  rw [reconcile, hq, removeLost, removeLost, if_neg (by rw [h]; exact Bool.false_ne_true)]

/-- The cause of CLAIM LOST by its cases (R88). -/
theorem lostCause_eq {v : View} {after : Bool} {e : QueueEntry} {c : ClaimLostCause} (htallied : talliedHere v e = false)
    (hended : e.left ≠ some .ended)
    (h : e.orphaned = true ∧ c = .orphaned ∨ e.orphaned = false ∧ after = true ∧ c = .notOwnAfterCatchUp ∨
      e.orphaned = false ∧ after = false ∧
        (e.left = some .ceded ∧ c = .ceded ∨ e.left = some .withdrawn ∧ c = .withdrawn ∨
          e.left = some .shipped ∧ c = .shipped ∨ (e.left = some .notOwn ∨ e.left = none) ∧ c = .notOwn)) :
    lostCause v after e = some c := by
  have hnot : (talliedHere v e || e.left == some .ended) = false := by simp [htallied, hended]
  rw [lostCause, hnot, if_neg Bool.false_ne_true]
  rcases h with ⟨horphaned, rfl⟩ | ⟨horphaned, rfl, rfl⟩ | ⟨horphaned, rfl, hleft⟩
  · rw [if_pos horphaned]
  · rw [horphaned, if_neg Bool.false_ne_true, if_pos rfl]
  · rw [horphaned, if_neg Bool.false_ne_true, if_neg Bool.false_ne_true]
    rcases hleft with ⟨hleft, rfl⟩ | ⟨hleft, rfl⟩ | ⟨hleft, rfl⟩ | ⟨hleft | hleft, rfl⟩ <;> rw [hleft]

/-- Where the loss of an entry is reported: at once, or after the insertion in test (R88, R147). -/
theorem reportLost_cli (e : QueueEntry) (c : ClaimLostCause) (b : Blocks) :
    (beforeRun e.phase = true → (reportLost e c b).cli = raiseCli (.claimLost e.lot e.step c none) b.cli) ∧
    (beforeRun e.phase = false → (∀ m n, b.iw.insertion ≠ .inTest m n) →
      (reportLost e c b).cli = raiseCli (.claimLost e.lot e.step c (some b.iw.counters)) b.cli) ∧
    (∀ m n, beforeRun e.phase = false → b.iw.insertion = .inTest m n → (reportLost e c b).cli = b.cli ∧
      (reportLost e c b).du.lostAfterTest = b.du.lostAfterTest ++ [⟨e.lot, e.step, c⟩]) := by
  unfold reportLost
  refine ⟨fun h => ?_, fun h hidle => ?_, fun m n h htest => ?_⟩
  · rw [if_pos h]
    rfl
  · have hnot : b.iw.inTest = false := by
      unfold InsertionWatch.inTest
      split
      · next m n hm => exact absurd hm (hidle m n)
      · rfl
    rw [h, hnot]
    rfl
  · have hin : b.iw.inTest = true := by rw [InsertionWatch.inTest, htest]
    rw [h, hin]
    exact ⟨rfl, rfl⟩

/-! ### The replica's steps after a frame -/

theorem withStep_lot? (r : Replica) (lot k n : Nat) (st : StepState) :
    (r.withStep lot k st).lot? n = (r.lot? n).map fun l => (if l.lot = lot then l.withStep k st else l).tested r := by
  simp only [Replica.withStep, Replica.lot?, List.find?_map]
  congr 1
  congr 1
  funext l
  simp only [Function.comp, LotRec.tested]
  split <;> rfl

theorem lot?_lot {r : Replica} {n : Nat} {l : LotRec} (h : r.lot? n = some l) : l.lot = n := by
  simpa using List.find?_some h

/-- Another step is as it was. -/
theorem withStep_other {r : Replica} {lot k n j : Nat} (st : StepState) (h : (n, j) ≠ (lot, k)) :
    (r.withStep lot k st).step? n j = r.step? n j := by
  rw [Replica.step?, withStep_lot?, Replica.step?]
  cases hl : r.lot? n with
  | none => rfl
  | some l =>
    simp only [Option.map_some, Option.bind_some, tested_step?]
    split
    · next hlot =>
      have hj : j ≠ k := fun hj => h (by rw [← lot?_lot hl, hlot, hj])
      simp only [withStep_step?, if_neg hj, Option.map_id']
    · rfl

/-- The step that a frame has set. -/
theorem withStep_same {r : Replica} {lot k : Nat} {l : LotRec} {y : StepRec} (st : StepState)
    (hl : r.lot? lot = some l) (hy : l.step? k = some y) :
    (r.withStep lot k st).step? lot k = some ⟨y.spec, st⟩ := by
  rw [Replica.step?, withStep_lot?, hl]
  simp only [Option.map_some, Option.bind_some, tested_step?, if_pos (lot?_lot hl)]
  simp only [withStep_step?, if_true, hy, Option.map_some]

end Sys2Proof.Machine
end

section
/-! A kit request that stands through the evaluations (R105): what they leave alone while no hold covers the head it is
for. -/

namespace Sys2Proof.Machine

/-- The step and cede cause of the head. -/
def Blocks.served (b : Blocks) : Option ((Nat × Nat) × Option CedeCause) :=
  b.du.queue.head?.map fun h => (h.key, h.cede)

theorem served_cons {b : Blocks} {h : QueueEntry} {q : List QueueEntry} (hq : b.du.queue = h :: q) :
    b.served = some (h.key, h.cede) := by
  rw [Blocks.served, hq]
  rfl

theorem served_eq_some {b : Blocks} {key : Nat × Nat} {c : Option CedeCause} (h : b.served = some (key, c)) :
    ∃ e q, b.du.queue = e :: q ∧ e.key = key ∧ e.cede = c := by
  obtain ⟨e, he, hx⟩ := Option.map_eq_some_iff.mp h
  obtain ⟨q, hq⟩ := List.head?_eq_some_iff.mp he
  cases hx
  exact ⟨e, q, hq, rfl, rfl⟩

/-- The Handler Record and the head's step and cede cause are left alone. -/
structure Prepares (b c : Blocks) : Prop where
  hr : c.hr = b.hr
  served : c.served = b.served

theorem Prepares.refl (b : Blocks) : Prepares b b := ⟨rfl, rfl⟩

theorem Prepares.trans {a b c : Blocks} (h : Prepares a b) (k : Prepares b c) : Prepares a c :=
  ⟨k.hr.trans h.hr, k.served.trans h.served⟩

theorem Prepares.ite {p : Prop} [Decidable p] {a b c : Blocks} (h : Prepares a b) (k : Prepares a c) :
    Prepares a (if p then b else c) := by
  split
  · exact h
  · exact k

theorem Prepares.foldOver {α : Type} {f : List α → Blocks → Blocks} {g : α → Blocks → Blocks} (hnil : ∀ b, f [] b = b)
    (hcons : ∀ x xs b, f (x :: xs) b = f xs (g x b)) (hg : ∀ x b, Prepares b (g x b)) (xs : List α) :
    ∀ b, Prepares b (f xs b) := by
  induction xs with
  | nil => exact fun b => by rw [hnil]; exact .refl b
  | cons x xs ih => exact fun b => by rw [hcons]; exact (hg x b).trans (ih _)

theorem Prepares.of_queue {b c : Blocks} (hhr : c.hr = b.hr) (hq : c.du.queue = b.du.queue) : Prepares b c :=
  ⟨hhr, by rw [Blocks.served, hq]; rfl⟩

theorem Reoffers.prepares {b c : Blocks} (h : Reoffers b c) : Prepares b c := .of_queue h.hr h.queue

theorem updateEntry_head {b : Blocks} {h : QueueEntry} {q : List QueueEntry} (l k : Nat) (f : QueueEntry → QueueEntry)
    (hq : b.du.queue = h :: q) :
    (updateEntry l k f b).du.queue.head? = some (if h.lot == l && h.step == k then f h else h) := by
  simp only [updateEntry_du, DispatchUnit.updateEntry, hq, List.map_cons, List.head?_cons]

/-- A change of entries that is none of the head's step and cede cause. -/
theorem updateEntry_prepares {l k : Nat} {f : QueueEntry → QueueEntry} {b : Blocks}
    (hf : ∀ h q, b.du.queue = h :: q → h.key = (l, k) → (f h).key = h.key ∧ (f h).cede = h.cede) :
    Prepares b (updateEntry l k f b) := by
  refine ⟨rfl, ?_⟩
  cases hq : b.du.queue with
  | nil => simp only [Blocks.served, updateEntry_du, DispatchUnit.updateEntry, hq, List.map_nil]
  | cons h q =>
    rw [served_cons hq, Blocks.served, updateEntry_head l k f hq, Option.map_some]
    split
    · next hkey =>
      have hk : h.key = (l, k) := by simpa [QueueEntry.key] using hkey
      obtain ⟨hsame, hcede⟩ := hf h q hq hk
      rw [hsame, hcede]
    · rfl

/-! ### The evaluations -/

theorem offer_reoffersHead (body : FrameBody) (t : Nat) (o : Owner) (host : Bool) (b : Blocks) :
    Prepares b (offer body t o host b) := (offer_reoffers body t o host b).prepares

theorem raise_prepares (n : Notice) (b : Blocks) : Prepares b (raise n b) := .of_queue rfl rfl

theorem withdrawAll_prepares (p : FrameBody → Bool) (b : Blocks) : Prepares b (withdrawAll p b) := .of_queue rfl rfl

theorem enqueueCede_prepares (l k : Nat) (host : Bool) (b : Blocks) : Prepares b (enqueueCede l k host b) :=
  .ite (.refl b) (offer_reoffersHead ..)

/-- A cede cause of another entry. -/
theorem setCede_prepares {c : CedeCause} {l k : Nat} {b : Blocks} (h : ∀ h q, b.du.queue = h :: q → h.key ≠ (l, k)) :
    Prepares b (setCede c l k b) := by
  unfold setCede
  split
  · next e _ =>
    refine .ite ?_ (.refl b)
    have hset : Prepares b (updateEntry l k (fun e => { e with cede := some (mergeCause e.cede c) }) b) :=
      updateEntry_prepares fun x q hq hkey => absurd hkey (h x q hq)
    have hstart := hset.trans (Prepares.ite (p := e.phase == .ready) (withdrawAll_prepares (isStartOf l k) _) (.refl _))
    have hdue := hstart.trans
      (Prepares.ite (p := e.phase == .ready) (c := _) (Prepares.of_queue (c := markDue _) rfl rfl) (.refl _))
    exact .ite (hdue.trans (enqueueCede_prepares l k _ _)) hdue
  · exact .refl b

theorem oweCedes_prepares : ∀ (es : List QueueEntry) (b : Blocks), Prepares b (oweCedes es b)
  | [], b => .refl b
  | e :: es, b => by
    refine Prepares.trans ?_ (oweCedes_prepares es _)
    split
    · exact .ite (enqueueCede_prepares _ _ _ b) (.refl b)
    · exact .refl b

theorem computeNeeds_prepares (v : View) (e : QueueEntry) (b : Blocks) : Prepares b (computeNeeds v e b) := by
  unfold computeNeeds
  simp only
  split
  · refine Prepares.trans (updateEntry_prepares ?_) (.ite (raise_prepares _ _) (.refl _))
    exact fun _ _ _ _ => ⟨rfl, rfl⟩
  · refine updateEntry_prepares ?_
    exact fun _ _ _ _ => ⟨rfl, rfl⟩

theorem computeAllNeeds_prepares (v : View) : ∀ (es : List QueueEntry) (b : Blocks),
    Prepares b (computeAllNeeds v es b) :=
  .foldOver (fun _ => rfl) (fun _ _ _ => rfl) (computeNeeds_prepares v)

theorem withHead_prepares {f : QueueEntry → Blocks → Blocks} {b : Blocks}
    (hf : ∀ h q, b.du.queue = h :: q → Prepares b (f h b)) : Prepares b (withHead f b) := by
  unfold withHead
  split
  · next h q hq => exact hf h q hq
  · exact .refl b

theorem enterHead_prepares (b : Blocks) : Prepares b (enterHead b) :=
  withHead_prepares fun _ _ _ => .ite (updateEntry_prepares fun _ _ _ _ => ⟨rfl, rfl⟩) (.refl b)

theorem headFalls_prepares (v : View) (b : Blocks) : Prepares b (withHead (headFalls v) b) :=
  withHead_prepares fun _ _ _ =>
    .ite ((updateEntry_prepares (by exact fun _ _ _ _ => ⟨rfl, rfl⟩)).trans (withdrawAll_prepares _ _)) (.refl b)

theorem makeReady_prepares (e : QueueEntry) (b : Blocks) : Prepares b (makeReady e b) := by
  unfold makeReady
  split
  · exact (updateEntry_prepares (by exact fun _ _ _ _ => ⟨rfl, rfl⟩)).trans (offer_reoffersHead ..)
  · exact .refl b

theorem headReady_prepares (v : View) (b : Blocks) : Prepares b (withHead (headReady v) b) :=
  withHead_prepares fun h _ _ => .ite (makeReady_prepares h b) (.refl b)

/-- Deference offers BIDs and runs timers. -/
theorem evaluateDeference_reoffers (v : View) (b : Blocks) : Reoffers b (evaluateDeference v b) := by
  have hstep : ∀ (l : LotRec) (k : Nat) (s : StepRec) (c : Blocks), Reoffers c (deferStep v l k s c) := fun l k s c =>
    .ite (.ite (.refl c) (.of_rest rfl rfl rfl rfl))
      (.ite (.refl c) (.ite (.ite (offer_reoffers ..) (.of_rest rfl rfl rfl rfl)) (.refl c)))
  have hsteps : ∀ (l : LotRec) (ss : List StepRec) (k : Nat) (c : Blocks), Reoffers c (deferSteps v l k ss c) := by
    intro l ss
    induction ss with
    | nil => exact fun _ c => .refl c
    | cons s ss ih =>
      exact fun k c => Reoffers.trans (b := if s.state.isWaiting then deferStep v l k s c else stopDeference l.lot k c)
        (.ite (hstep l k s c) (.of_rest rfl rfl rfl rfl)) (ih (k + 1) _)
  have hlots : ∀ (ls : List LotRec) (c : Blocks), Reoffers c (deferLots v ls c) :=
    .foldOver (fun _ => rfl) (fun _ _ _ => rfl) fun l c => hsteps l l.plan 1 c
  exact Reoffers.trans
    (b := { b with du := { b.du with timers := b.du.timers.filter fun t => (v.rep.step? t.lot t.step).isSome } })
    (.of_rest rfl rfl rfl rfl) (hlots _ _)

/-! ### The parts of the Dispatch Unit's evaluation (R83) -/

/-- Needs, a new head in PREPARING, and the cede causes HOLD. -/
def Blocks.resumed (v : View) (b : Blocks) : Blocks :=
  let b := enterHead (computeAllNeeds v b.du.queue b)
  headResumes v (holdCedes v b.du.queue b)

/-- The owed CEDEs. -/
def Blocks.owing (b : Blocks) : Blocks := oweCedes b.du.queue b

theorem evaluateDispatch_eq (v : View) (b : Blocks) : evaluateDispatch v b = evaluateDeference v
    (withHead (headReady v) (withHead (headAsks v) (withHead (headFalls v) (b.resumed v).owing))) := rfl

/-! ### A request for a head that no hold covers -/

/-- Coverage of an entry reads the fitted kit alone of the blocks (R94). -/
theorem entryCovered_congr {v : View} {b c : Blocks} (h : c.hr.fitted = b.hr.fitted) (e : QueueEntry) :
    entryCovered v c e = entryCovered v b e := by
  have hkit : ∀ family, entryKit v c e family = entryKit v b e family := fun family => by
    simp only [entryKit, kitFor, usableFitted, h]
  simp only [entryCovered, hkit]

/-- A kit request stands for the head, which has no cede cause and is not covered, whatever its phase. -/
structure Requests (v : View) (r : KitRequest) (b : Blocks) : Prop where
  request : b.hr.request = some r
  served : b.served = some ((r.lot, r.step), none)
  uncovered : ∀ e : QueueEntry, e.key = (r.lot, r.step) → entryCovered v b e = false

theorem Requests.of_prepares {v : View} {r : KitRequest} {b c : Blocks} (h : Requests v r b) (k : Prepares b c) :
    Requests v r c :=
  ⟨by rw [k.hr]; exact h.request, k.served.trans h.served,
    fun e he => (entryCovered_congr (by rw [k.hr]) e).trans (h.uncovered e he)⟩

theorem Requests.head_key {v : View} {r : KitRequest} {b : Blocks} (h : Requests v r b) {e : QueueEntry}
    {q : List QueueEntry} (hq : b.du.queue = e :: q) : e.key = (r.lot, r.step) ∧ e.cede = none := by
  have hs := (served_cons hq).symm.trans h.served
  exact Prod.mk.inj (Option.some.inj hs)

theorem Requests.holdCede {v : View} {r : KitRequest} {b : Blocks} (h : Requests v r b) (e : QueueEntry) :
    Requests v r (holdCede v e b) := by
  refine h.of_prepares ?_
  unfold Machine.holdCede
  split
  · next hcovered =>
    refine .ite (setCede_prepares fun x q hq hkey => ?_) (.refl b)
    have hx := (h.head_key hq).1
    rw [h.uncovered e (hkey.symm.trans hx)] at hcovered
    cases hcovered
  · refine .ite ((updateEntry_prepares fun x q hq _ => ?_).trans (withdrawAll_prepares _ _)) (.refl b)
    rw [(h.head_key hq).2]
    exact ⟨rfl, (h.head_key hq).2⟩

theorem Requests.holdCedes {v : View} {r : KitRequest} : ∀ (es : List QueueEntry) {b : Blocks}, Requests v r b →
    Requests v r (holdCedes v es b)
  | [], _, h => h
  | e :: es, _, h => Requests.holdCedes es (h.holdCede e)

theorem Requests.upkeepRequest {v : View} {r : KitRequest} {b : Blocks} (h : Requests v r b) :
    upkeepRequest b = b := by
  obtain ⟨e, q, hq, hkey, hcede⟩ := served_eq_some h.served
  have hlot : e.lot = r.lot := congrArg Prod.fst hkey
  have hstep : e.step = r.step := congrArg Prod.snd hkey
  simp only [Machine.upkeepRequest, h.request, hq, hlot, hstep, hcede, beq_self_eq_true, Option.isNone_none, Bool.and_self,
    if_true]

/-- The head's request is made already (R103). -/
theorem Requests.makeRequests {v : View} {r : KitRequest} {b : Blocks} (h : Requests v r b) {e : QueueEntry}
    {q : List QueueEntry} (hq : b.du.queue = e :: q) : Requests v r (makeRequests v e b) := by
  have hkey := (h.head_key hq).1
  have hasked : Requests v r (updateEntry e.lot e.step (fun x => { x with asked := true }) b) :=
    h.of_prepares (updateEntry_prepares fun _ _ _ _ => ⟨rfl, rfl⟩)
  have hband : ∀ c : Blocks, Requests v r c → Requests v r (match bandNeededOf v c e with
      | some x => raise (.bandNeeded e.lot e.step x) c
      | none => c) := fun c hc => by
    split
    · exact hc.of_prepares (raise_prepares _ c)
    · exact hc
  have hask : ∀ (family : Nat) (c : Blocks), Requests v r c → Requests v r (askKit v e.lot e.step family c) :=
    fun family c hc => by
      have hlot : r.lot = e.lot := (congrArg Prod.fst hkey).symm
      have hstep : r.step = e.step := (congrArg Prod.snd hkey).symm
      have hself : askKit v e.lot e.step family c = c := by
        simp only [askKit, hc.request, hlot, hstep, beq_self_eq_true, Bool.and_self, if_true]
      rw [hself]
      exact hc
  unfold Machine.makeRequests
  simp only
  split
  · exact hask _ _ (hband _ hasked)
  · exact hband _ hasked

theorem Requests.withHead {v : View} {r : KitRequest} {b : Blocks} {f : QueueEntry → Blocks → Blocks}
    (h : Requests v r b) (hf : ∀ e q, b.du.queue = e :: q → Requests v r (f e b)) : Requests v r (withHead f b) := by
  unfold Machine.withHead
  split
  · next e q hq => exact hf e q hq
  · exact h

theorem Requests.evaluateDispatch {v : View} {r : KitRequest} {b : Blocks} (h : Requests v r b) :
    Requests v r (evaluateDispatch v b) := by
  have hentered := (h.of_prepares (computeAllNeeds_prepares v b.du.queue b)).of_prepares (enterHead_prepares _)
  have hheld := (hentered.holdCedes (enterHead (computeAllNeeds v b.du.queue b)).du.queue).of_prepares
    (enterHead_prepares _)
  have hresumed : Requests v r (b.resumed v) := hheld.withHead fun e _ _ => hheld.holdCede e
  have hfallen := (hresumed.of_prepares (oweCedes_prepares (b.resumed v).du.queue _)).of_prepares
    (headFalls_prepares v (b.resumed v).owing)
  have hasked : Requests v r (Machine.withHead (headAsks v) (Machine.withHead (headFalls v) (b.resumed v).owing)) :=
    hfallen.withHead fun e q hq => by
      unfold headAsks
      split
      · exact hfallen.makeRequests hq
      · exact hfallen
  rw [evaluateDispatch_eq]
  exact (hasked.of_prepares (headReady_prepares v _)).of_prepares (evaluateDeference_reoffers v _).prepares

theorem Requests.settleRound {v : View} {r : KitRequest} {b : Blocks} (h : Requests v r b) :
    Requests v r (settleRound v b) := by
  have hdue : Requests v r (evaluateIfDue v b) := by
    unfold evaluateIfDue
    split
    · exact (h.of_prepares (c := { b with du := { b.du with evalDue := false } }) (.of_queue rfl rfl)).evaluateDispatch
    · exact h
  obtain ⟨l, due, hload⟩ := evaluateLoad_rest v (Machine.upkeepRequest (evaluateIfDue v b))
  obtain ⟨hdu, hhr, -, -⟩ := evaluateGate_rest v (evaluateLoad v (Machine.upkeepRequest (evaluateIfDue v b)))
  have hloaded : Requests v r (evaluateLoad v (Machine.upkeepRequest (evaluateIfDue v b))) := by
    rw [hload, hdue.upkeepRequest]
    exact hdue.of_prepares (.of_queue rfl rfl)
  exact hloaded.of_prepares (.of_queue hhr (by rw [Machine.settleRound, hdu]))

theorem Requests.settle {v : View} {r : KitRequest} {b : Blocks} (h : Requests v r b) : Requests v r (settle v b) :=
  settle_keeps (P := Requests v r) (fun _ hc => hc.settleRound) b h

/-! ### What stands at the end of a command -/

/-- A request is for the head, which has no cede cause (R105). -/
def RequestServed (b : Blocks) : Prop :=
  ∀ r, b.hr.request = some r → b.served = some ((r.lot, r.step), none)

theorem upkeepRequest_served (b : Blocks) : RequestServed (upkeepRequest b) := by
  intro r hr
  unfold upkeepRequest at hr ⊢
  cases hreq : b.hr.request with
  | none =>
    simp only [hreq] at hr
    cases hr
  | some r' =>
    have hnone := endRequest_request b
    simp only [hreq] at hr ⊢
    cases hq : b.du.queue with
    | nil =>
      simp only [hq, hnone] at hr
      cases hr
    | cons h q =>
      simp only [hq] at hr ⊢
      split at hr
      · next hhead =>
        rw [if_pos hhead]
        obtain rfl : r' = r := Option.some.inj (hreq.symm.trans hr)
        have hkey : (h.lot = r'.lot ∧ h.step = r'.step) ∧ h.cede = none := by simpa using hhead
        rw [served_cons hq, QueueEntry.key, hkey.1.1, hkey.1.2, hkey.2]
      · rw [hnone] at hr
        cases hr

theorem RequestServed.of_prepares {b c : Blocks} (h : RequestServed b) (k : Prepares b c) : RequestServed c :=
  fun r hr => k.served.trans (h r (by rw [← k.hr]; exact hr))

theorem settleRound_served (v : View) (b : Blocks) : RequestServed (settleRound v b) := by
  obtain ⟨l, due, hload⟩ := evaluateLoad_rest v (upkeepRequest (evaluateIfDue v b))
  obtain ⟨hdu, hhr, -, -⟩ := evaluateGate_rest v (evaluateLoad v (upkeepRequest (evaluateIfDue v b)))
  have hloaded : RequestServed (evaluateLoad v (upkeepRequest (evaluateIfDue v b))) := by
    rw [hload]
    exact (upkeepRequest_served _).of_prepares (.of_queue rfl rfl)
  exact hloaded.of_prepares (.of_queue hhr (by rw [settleRound, hdu]))

theorem settle_served (v : View) (b : Blocks) : RequestServed (settle v b) := by
  obtain ⟨c, hc⟩ := settle_last v b
  rw [hc]
  exact settleRound_served v c

theorem finish_served (v : View) (b : Blocks) : RequestServed (finish v b) :=
  (completeLeave_settled (P := RequestServed) v b (settle_served v)).of_prepares (.of_queue rfl rfl)

end Sys2Proof.Machine
end

section
/-! Kit requests: the choice of R103, the outcome of a TAKE (R104), and what ends a request (R105): O34. -/

namespace Sys2Proof.Machine

/-! ### The choice (R103) -/

/-- Of kits whose IDs rise, the first that satisfies a condition is the lowest. -/
theorem find?_of_lowest {ks : List KitRec} {p : KitRec → Bool} {c : KitRec} (hrising : rising (ks.map KitRec.kit) = true)
    (hc : c ∈ ks) (hp : p c = true) (hlow : ∀ d ∈ ks, p d = true → c.kit ≤ d.kit) : ks.find? p = some c := by
  rw [rising_iff] at hrising
  induction ks with
  | nil => cases hc
  | cons x xs ih =>
    obtain ⟨hx, hxs⟩ := List.pairwise_cons.mp hrising
    rcases List.mem_cons.mp hc with rfl | hmem
    · exact List.find?_cons_of_pos hp
    · have hlt := hx _ (List.mem_map_of_mem hmem)
      have hnot : ¬p x = true := fun hpx => by
        have hle := hlow x List.mem_cons_self hpx
        omega
      rw [List.find?_cons_of_neg hnot]
      exact ih hxs hmem fun d hd => hlow d (List.mem_cons_of_mem _ hd)

theorem kitServes_iff (r : Replica) (family : Nat) (loc : KitLocation) (k : KitRec) :
    kitServes r family loc k = true ↔
      k.location = loc ∧ k.family = family ∧ k.count < k.limit ∧ r.heldAs (.kit k.kit) = false := by
  simp only [kitServes, KitRec.due, Replica.kitHeld, Bool.and_eq_true, beq_iff_eq, Bool.not_eq_true', and_assoc,
    decide_eq_false_iff_not, Nat.not_le]

section
variable {v : View} {b : Blocks} {r : KitRequest}

theorem kitHere_eq {here : KitRec → Bool} (h : ∀ k, here k = true ↔ k.location = .at v.id ∧ k.family = r.family ∧
    k.count < k.limit ∧ v.rep.heldAs (.kit k.kit) = false ∧ k.kit ∉ b.hr.gives) :
    kitHere v b r.family = (v.rep.kits.find? here).map KitRec.kit := by
  rw [kitHere]
  congr 2
  funext k
  rw [Bool.eq_iff_iff, Bool.and_eq_true, kitServes_iff, h]
  simp [and_assoc]

theorem kitOnShelf_eq {shelf : KitRec → Bool} (h : ∀ k, shelf k = true ↔ k.location = .shelf ∧ k.family = r.family ∧
    k.count < k.limit ∧ v.rep.heldAs (.kit k.kit) = false ∧ k.kit ∉ r.tried) :
    kitOnShelf v r.family r.tried = (v.rep.kits.find? shelf).map KitRec.kit := by
  rw [kitOnShelf]
  congr 2
  funext k
  rw [Bool.eq_iff_iff, Bool.and_eq_true, kitServes_iff, h]
  simp [and_assoc]

theorem usableFitted_none (v : View) {hr : HandlerRecord} (h : hr.fitted = none) (family : Nat) :
    usableFitted v hr family = none := by
  rw [usableFitted, h]

theorem chooseKit_usable (h : usableFitted v b.hr r.family ≠ none) : chooseKit v r b = endRequest b := by
  rw [chooseKit, if_pos (Option.isSome_iff_ne_none.mpr h)]

theorem chooseKit_removes {j : Nat} (husable : usableFitted v b.hr r.family = none) (h : b.hr.fitted = some j) :
    chooseKit v r b = needRemoval r j b := by
  simp only [chooseKit, husable, h, Option.isSome_none, Bool.false_eq_true, if_false]

theorem chooseKit_fits {k : Nat} (h : b.hr.fitted = none) (hhere : kitHere v b r.family = some k) :
    chooseKit v r b = needFitting r k b := by
  simp only [chooseKit, usableFitted_none v h, h, hhere, Option.isSome_none, Bool.false_eq_true, if_false]

theorem chooseKit_takes {k : Nat} (h : b.hr.fitted = none) (hhere : kitHere v b r.family = none)
    (hstation : b.station ≠ .isolated) (hshelf : kitOnShelf v r.family r.tried = some k) :
    chooseKit v r b = startTaking r k b := by
  have hon : (b.station == .isolated) = false := beq_eq_false_iff_ne.mpr hstation
  simp only [chooseKit, usableFitted_none v h, h, hhere, hon, hshelf, Option.isSome_none, Bool.false_eq_true, if_false]

theorem chooseKit_cedes (h : b.hr.fitted = none) (hhere : kitHere v b r.family = none)
    (hshelf : b.station = .isolated ∨ kitOnShelf v r.family r.tried = none) :
    chooseKit v r b = setCede .kit r.lot r.step (endRequest b) := by
  have hnone : (if b.station == .isolated then none else kitOnShelf v r.family r.tried) = none := by
    rcases hshelf with hon | hnone
    · rw [hon]
      rfl
    · rw [hnone, ite_self]
  simp only [chooseKit, usableFitted_none v h, h, hhere, hnone, Option.isSome_none, Bool.false_eq_true, if_false]

end

/-! ### The outcome of a TAKE (R104) -/

theorem takingFor_eq {b : Blocks} {r : KitRequest} {k : Nat} (hr : b.hr.request = some r) (hphase : r.phase = .taking)
    (hk : r.candidate = some k) : takingFor b k = some r := by
  simp only [takingFor, hr, hphase, hk, beq_self_eq_true, Bool.and_self, if_true]

theorem takeOutcome_eq {b : Blocks} {r : KitRequest} {k : Nat} (h : takingFor b k = some r) (v : View) (sig : Signal) :
    takeOutcome v sig k b = if sig.effect then needFitting r k b else tryNext v r k b := by
  simp only [takeOutcome, h]

/-! ### A request ended (R105) -/

/-- What waits behind grants has waited before them (R9). -/
theorem grants_waiting {e : SendEntry} (n : Nat) : ∀ {lc : LinkController}, e ∈ (grants n lc).waiting → e ∈ lc.waiting := by
  have hone : ∀ lc : LinkController, e ∈ (grantOne lc).waiting → e ∈ lc.waiting := fun lc h => by
    unfold grantOne at h
    split at h
    · split at h
      · exact List.mem_of_mem_erase h
      · exact h
    · exact h
  induction n with
  | zero => exact id
  | succ n ih => exact fun h => hone _ (ih h)

/-- A withdrawn frame is left in transmission alone, marked for removal (R11). -/
theorem withdrawLc_leaves {p : FrameBody → Bool} {lc : LinkController} {e : SendEntry} (hp : p e.body = true) :
    e ∉ (withdrawLc p lc).waiting ∧ (e ∈ (withdrawLc p lc).queue → e.inTx = true ∧ e.removal = true) := by
  refine ⟨fun he => ?_, fun he => ?_⟩
  · rw [withdrawLc, LinkController.release, refill] at he
    have hwaited := grants_waiting _ he
    simp [hp] at hwaited
  · have hmem := List.mem_append_left (withdrawLc p lc).waiting he
    simp only [withdrawLc, LinkController.release] at hmem
    rw [refill_mem] at hmem
    simp only [List.mem_append, List.mem_filter, List.mem_map, hp] at hmem
    rcases hmem with ⟨⟨x, -, rfl⟩, hkept⟩ | ⟨-, hfalse⟩
    · split at hkept
      · next hx =>
        rw [if_pos hx]
        exact ⟨(Bool.and_eq_true_iff.mp hx).2, rfl⟩
      · next hx =>
        rw [if_neg hx] at hp
        simp [hp] at hx hkept
        exact absurd hkept (by simp [hx])
    · cases hfalse

theorem endRequest_leaves {b : Blocks} {r : KitRequest} (h : b.hr.request = some r) :
    (endRequest b).hr.request = none ∧ (∀ e ∈ (endRequest b).lc.waiting, ∀ k, e.body ≠ .kitTake k) ∧
      ∀ e ∈ (endRequest b).lc.queue, ∀ k, e.body = .kitTake k → e.inTx = true ∧ e.removal = true := by
  have hlc : (endRequest b).lc = withdrawLc isKitTake b.lc := by
    simp only [endRequest, h]
    rfl
  have htake : ∀ (e : SendEntry) (k : Nat), e.body = .kitTake k → isKitTake e.body = true := fun e k hbody => by
    rw [hbody]
    rfl
  rw [hlc]
  exact ⟨endRequest_request b, fun e he k hbody => (withdrawLc_leaves (htake e k hbody)).1 he,
    fun e he k hbody => (withdrawLc_leaves (htake e k hbody)).2 he⟩

/-! ### An own KIT TAKE heard with effect (R104) -/

/-- The steps a frame that leaves lots and holds alone shows. -/
theorem step?_of_lots {r r' : Replica} (h : r'.lots = r.lots.map fun l => l.tested r) (n k : Nat) :
    r'.step? n k = r.step? n k := by
  rw [Replica.step?, Replica.step?, Replica.lot?, Replica.lot?, h, List.find?_map]
  have hsame : ((fun l : LotRec => l.lot == n) ∘ fun l : LotRec => l.tested r) = fun l : LotRec => l.lot == n := rfl
  rw [hsame]
  cases r.lots.find? fun l => l.lot == n <;> rfl

theorem lot?_of_lots {r r' : Replica} (h : r'.lots = r.lots.map fun l => l.tested r) (n : Nat) :
    r'.lot? n = (r.lot? n).map fun l => l.tested r := by
  rw [Replica.lot?, Replica.lot?, h, List.find?_map]
  rfl

/-- A signal of a kit frame marks no entry. -/
theorem markEntries_kit {v : View} {sig : Signal} {b : Blocks}
    (hlots : v.rep.lots = sig.before.lots.map fun l => l.tested sig.before) (hbody : ∀ s, sig.body ≠ .orphan s) :
    markEntries v sig b = b := by
  have hmark : ∀ e, markEntry v sig e = e := fun e => by
    have hleft : leftNow v sig e = false := by
      have hmine : wasMine v sig e = stillMine v e := by
        rw [stillMine, step?_of_lots hlots]
        rfl
      rw [leftNow, hmine]
      cases stillMine v e <;> rfl
    have hgone : lotGone v sig e = false := by
      rw [lotGone, lot?_of_lots hlots]
      cases sig.before.lot? e.lot <;> rfl
    simp only [markEntry, hleft, hgone, Bool.false_and, Bool.false_eq_true, if_false]
  have hrun : runOrphaned v sig b = false := by
    have hnot : orphansMe v sig = false := beq_eq_false_iff_ne.mpr (hbody v.id)
    rw [runOrphaned, hnot, Bool.false_and]
  have hmap : b.du.queue.map (markEntry v sig) = b.du.queue :=
    (List.map_congr_left (g := id) fun e _ => hmark e).trans (List.map_id _)
  simp only [markEntries, hrun, hmap, Bool.false_eq_true, if_false]

/-- The kit a station would use is free of holds (R80). -/
theorem kitFor_free {v : View} {hr : HandlerRecord} {family k : Nat} (h : kitFor v hr family = some k) :
    v.rep.heldAs (.kit k) = false := by
  unfold kitFor at h
  split at h
  · next j hj =>
    cases h
    unfold usableFitted at hj
    split at hj
    · split at hj
      · next c hc =>
        split at hj
        · next hserves =>
          cases hj
          have hid : c.kit = k := by simpa using List.find?_some hc
          exact hid ▸ ((kitServes_iff ..).mp hserves).2.2.2
        · cases hj
      · cases hj
    · cases hj
  · obtain ⟨c, hc, rfl⟩ := Option.map_eq_some_iff.mp h
    exact ((kitServes_iff ..).mp (List.find?_some hc)).2.2.2

/-- A head that a hold does not cover with the fitted kit is not covered with the kit it would be given either: that one
is free of holds (R80, R94). -/
theorem not_entryCovered {v : View} {b : Blocks} {e : QueueEntry} {l : LotRec} {z : StepRec} (hl : v.rep.lot? e.lot = some l)
    (hz : l.step? e.step = some z) (h : v.rep.coveredStep l z.spec v.id b.hr.fitted = false) :
    entryCovered v b e = false := by
  rw [entryCovered, hl]
  simp only [hz]
  rw [← Bool.not_eq_true, Replica.coveredStep, List.any_eq_true]
  rintro ⟨x, hx, hcovers⟩
  rw [Replica.coveredStep, List.any_eq_false] at h
  refine h x hx ?_
  unfold entryKit at hcovers
  split at hcovers
  · cases htarget : x.target with
    | kit j =>
      have hkit : kitFor v b.hr z.spec.family = some j := by simpa [HoldEntry.coversStep, htarget] using hcovers
      have hheld : v.rep.heldAs (.kit j) = true := List.any_eq_true.mpr ⟨x, hx, by simp [htarget]⟩
      rw [kitFor_free hkit] at hheld
      cases hheld
    | _ => simpa only [HoldEntry.coversStep, htarget] using hcovers
  · exact hcovers

/-- Reconcile of a queue whose head is this station's and has its request made. -/
theorem reconcile_prepares {v : View} {b : Blocks} {r : KitRequest} (a : Bool) (hr : b.hr.request = some r)
    (hserved : b.served = some ((r.lot, r.step), none)) (hmine : v.shows (r.lot, r.step) = true) :
    Prepares b (reconcile v a b) := by
  obtain ⟨h, q, hq, hkey, hcede⟩ := served_eq_some hserved
  have hhead : stillMine v h = true := by rw [stillMine_eq_shows, hkey, hmine]
  have hlost : (removeLost v a b.du.queue b).du.queue = h :: q.filter (stillMine v) := by
    rw [removeLost_queue, hq, List.filter_cons_of_pos hhead]
  have hhr : (removeLost v a b.du.queue b).hr = b.hr := (removeLost_rest v a _ b).1
  have hstands : upkeepRequest (removeLost v a b.du.queue b) = removeLost v a b.du.queue b := by
    have hlot : h.lot = r.lot := congrArg Prod.fst hkey
    have hstep : h.step = r.step := congrArg Prod.snd hkey
    simp only [upkeepRequest, hhr, hr, hlost, hlot, hstep, hcede, beq_self_eq_true, Option.isNone_none, Bool.and_self,
      if_true]
  rw [reconcile, hstands]
  exact ⟨hhr, by rw [served_cons hlost, served_cons hq]⟩

/-- The signal of an own KIT TAKE with effect, where a request waits for it. -/
theorem signalBlocks_take {v : View} {sig : Signal} {b : Blocks} {r : KitRequest} {k : Nat} (hbody : sig.body = .kitTake k)
    (hown : sig.own = true) (heffect : sig.effect = true)
    (hlots : v.rep.lots = sig.before.lots.map fun l => l.tested sig.before)
    (hrequest : b.hr.request = some r) (hphase : r.phase = .taking) (hk : r.candidate = some k)
    (hserved : b.served = some ((r.lot, r.step), none)) (hmine : v.shows (r.lot, r.step) = true) :
    ∃ c, Prepares b c ∧ signalBlocks v sig b = markDue (releaseChecks v (needFitting r k c)) := by
  have hmark : markEntries v sig b = b := markEntries_kit hlots fun s => by rw [hbody]; exact nofun
  have hreconcile : Prepares b (reconcileOn v sig b) := .ite (reconcile_prepares false hrequest hserved hmine) (.refl b)
  have hentered := hreconcile.trans (enterHead_prepares _)
  refine ⟨_, hentered, ?_⟩
  have htaking : takingFor (enterHead (reconcileOn v sig b)) k = some r :=
    takingFor_eq (by rw [hentered.hr]; exact hrequest) hphase hk
  have houtcome : handlerOutcome v sig (enterHead (reconcileOn v sig b))
      = needFitting r k (enterHead (reconcileOn v sig b)) := by
    simp only [handlerOutcome, hbody, hown, if_true]
    rw [takeOutcome_eq htaking, heffect, if_pos rfl]
  have hcell : ∀ d, cellOutcome v sig d = d := fun d => by simp only [cellOutcome, hbody]
  have hnotices : replicaNotices v sig b = b := by simp only [replicaNotices, hbody]
  have hdispatch : dispatchOutcome v sig b = b := by simp only [dispatchOutcome, hbody]
  have hwatch : ∀ d, watchOutcome v sig d = d := fun d => by simp only [watchOutcome, hbody]
  have hpresence : ∀ d, presenceOutcome v sig d = d := fun d => by simp only [presenceOutcome, hbody]
  simp only [signalBlocks, hnotices, hmark, hdispatch, hwatch, hpresence, houtcome, hcell]

/-- What an own KIT TAKE with effect leaves of the floor. -/
theorem applied_take {s : State} {auth : Level} {k : Nat} {c : KitRec} (h : s.Hearing .own s.stationId auth (.kitTake k))
    (hc : s.re.replica.kit? k = some c) (hshelf : c.location = .shelf) (hdue : c.count < c.limit) :
    s.re.replica.KitBecomes (s.re.apply s.config.authority s.stationId (.kitTake k)).replica k
        (some { c with location := .at s.stationId }) ∧
      (s.signal (.kitTake k)).effect = true := by
  have hfree : (c.onShelf && !c.due) = true := by
    simp [KitRec.onShelf, KitRec.due, hshelf, hdue]
  obtain ⟨t, ht, hbecomes⟩ := (kitFrames_become s .own s.stationId auth k).1 h
  obtain ⟨t', ht', hre, -⟩ := frameEnd_own_blocks h
  obtain rfl : t = t' := Host.Outcome.next.inj (ht.symm.trans ht')
  rw [hre, hc, Option.map_some, if_pos hfree] at hbecomes
  refine ⟨hbecomes, ?_⟩
  change kitIs s.re.replica k (fun c => c.onShelf && !c.due) = true
  rw [kitIs, hc]
  exact hfree

end Sys2Proof.Machine
end

section
/-! O34 put together. -/

namespace Sys2Proof.Machine

/-- An own KIT TAKE that is heard with effect and a request waits for: KIT NEEDED, and the request in FITTING while no hold
covers the head. -/
theorem frameEnd_take {s : State} {auth : Level} {r : KitRequest} {k : Nat} {c : KitRec} {h : QueueEntry}
    {q : List QueueEntry} {z : StepRec} (hearing : s.Hearing .own s.stationId auth (.kitTake k))
    (hleaving : s.blocks.du.leaving = false) (hrequest : s.blocks.hr.request = some r) (hphase : r.phase = .taking)
    (hk : r.candidate = some k) (hq : s.blocks.du.queue = h :: q) (hkey : h.key = (r.lot, r.step)) (hcede : h.cede = none)
    (hz : s.re.replica.step? h.lot h.step = some z) (hmine : z.state.heldBy s.stationId = true)
    (hc : s.re.replica.kit? k = some c) (hshelf : c.location = .shelf) (hdue : c.count < c.limit) :
    ∃ t, exec (.frameEnd .own) s = .next t ∧ t.re.replica.kit? k = some { c with location := .at s.stationId } ∧
      t.blocks.reported (.kitNeeded r.lot r.step r.family none (some k)) ∧
      (∀ l, s.re.replica.lot? h.lot = some l →
        s.re.replica.coveredStep l z.spec s.stationId s.blocks.hr.fitted = false →
        t.blocks.hr.request = some { r with phase := .fitting, candidate := some k }) := by
  obtain ⟨t, ht, hre, hblocks⟩ := frameEnd_own_blocks hearing
  obtain ⟨hbecomes, heffect⟩ := applied_take hearing hc hshelf hdue
  have hlots : (s.applied (.kitTake k)).rep.lots = (s.signal (.kitTake k)).before.lots.map
      fun l => l.tested (s.signal (.kitTake k)).before := hbecomes.lots
  have hstep : (s.applied (.kitTake k)).rep.step? h.lot h.step = some z := (step?_of_lots hlots _ _).trans hz
  have hshows : (s.applied (.kitTake k)).shows (r.lot, r.step) = true := by
    rw [← hkey]
    change stillMine (s.applied (.kitTake k)) h = true
    rw [stillMine, hstep]
    exact hmine
  have hserved : ({ s.blocks with lc := s.blocks.lc.sent } : Blocks).served = some ((r.lot, r.step), none) := by
    rw [served_cons (b := { s.blocks with lc := s.blocks.lc.sent }) hq, hkey, hcede]
  obtain ⟨d, hprepares, hsignal⟩ := signalBlocks_take (v := s.applied (.kitTake k)) (sig := s.signal (.kitTake k))
    (b := { s.blocks with lc := s.blocks.lc.sent }) rfl rfl heffect hlots hrequest hphase hk hserved hshows
  have hrest := (releaseChecks_reoffers (s.applied (.kitTake k)) (needFitting r k d)).prepares
  have hattends := releaseChecks_attends (s.applied (.kitTake k)) (needFitting r k d)
  have hdue' : (signalBlocks (s.applied (.kitTake k)) (s.signal (.kitTake k))
      { s.blocks with lc := s.blocks.lc.sent }).du.leaving = false :=
    (signalBlocks_attends _ _ _).leaving hleaving
  refine ⟨t, ht, by rw [hre]; exact hbecomes.kit, ?_, fun l hl hfree => ?_⟩
  · rw [hblocks]
    refine (finish_evolves _ _ hdue').reported ?_
    rw [hsignal]
    exact hattends.reported _ (raise_reported _ _)
  · rw [hblocks, finish_of_not_leaving hdue']
    refine Requests.request (v := s.applied (.kitTake k)) (b := settle _ _) (Requests.settle ?_)
    rw [hsignal]
    have hfitted : d.hr.fitted = s.blocks.hr.fitted := by rw [hprepares.hr]
    have hstands : Requests (s.applied (.kitTake k)) { r with phase := .fitting, candidate := some k }
        (needFitting r k d) := by
      refine ⟨rfl, hprepares.served.trans hserved, fun e he => ?_⟩
      have hlot : e.lot = h.lot := congrArg Prod.fst (he.trans hkey.symm)
      have hnum : e.step = h.step := congrArg Prod.snd (he.trans hkey.symm)
      have hltested : (s.applied (.kitTake k)).rep.lot? e.lot = some (l.tested s.re.replica) := by
        rw [hlot, lot?_of_lots hlots, show (s.signal (.kitTake k)).before.lot? h.lot = some l from hl]
        rfl
      have hlz : (l.tested s.re.replica).step? e.step = some z := by
        rw [tested_step?, hnum]
        rw [Replica.step?, hl] at hz
        exact hz
      refine not_entryCovered hltested hlz ?_
      have hholds : (s.applied (.kitTake k)).rep.holds = s.re.replica.holds := hbecomes.holds
      rw [Replica.coveredStep, hholds]
      change (s.re.replica.holds.any fun x => x.coversStep l z.spec s.stationId d.hr.fitted) = false
      rw [hfitted]
      exact hfree
    exact (hstands.of_prepares hrest).of_prepares (.of_queue rfl rfl)

/-- Settles O34. -/
theorem kitRequestsChooseAndEnd : Obligations.KitRequestsChooseAndEnd := by
  refine ⟨fun v b r here shelf hrising hhere hshelf => ⟨chooseKit_usable, fun j husable hfitted => ?_,
      fun c hc hfitted hp hlow => ?_, fun c hc hfitted hnone hstation hp hlow => ?_, fun hfitted hnone hor => ?_⟩,
    fun v b r k sig hr hphase hk => ?_,
    fun s auth r k c h q z hearing hleaving hr hphase hk hq hlot hstep hcede hz hmine hc hloc hdue => ?_,
    fun s r hr => ?_, fun b r hr => endRequest_leaves hr⟩
  · rw [chooseKit_removes husable hfitted]
    rfl
  · have hfind : kitHere v b r.family = some c.kit := by
      rw [kitHere_eq hhere, find?_of_lowest hrising hc hp hlow]
      rfl
    rw [chooseKit_fits hfitted hfind]
    rfl
  · have hhereNone : kitHere v b r.family = none := by
      rw [kitHere_eq hhere, List.find?_eq_none.mpr fun d hd => Bool.not_eq_true _ ▸ hnone d hd]
      rfl
    have hfind : kitOnShelf v r.family r.tried = some c.kit := by
      rw [kitOnShelf_eq hshelf, find?_of_lowest hrising hc hp hlow]
      rfl
    rw [chooseKit_takes hfitted hhereNone hstation hfind, startTaking, offer]
    by_cases haccepts : acceptsFrames b.station = true
    · rw [if_pos (by exact haccepts), if_pos haccepts]
      rfl
    · rw [if_neg (by exact haccepts), if_neg haccepts]
      rfl
  · have hhereNone : kitHere v b r.family = none := by
      rw [kitHere_eq hhere, List.find?_eq_none.mpr fun d hd => Bool.not_eq_true _ ▸ hnone d hd]
      rfl
    refine chooseKit_cedes hfitted hhereNone (hor.imp_right fun hshelfNone => ?_)
    rw [kitOnShelf_eq hshelf, List.find?_eq_none.mpr fun d hd => Bool.not_eq_true _ ▸ hshelfNone d hd]
    rfl
  · have htaking := takingFor_eq hr hphase hk
    refine ⟨?_, fun heffect => ?_, fun heffect => ?_⟩
    · simp only [takeInvalid, htaking]
      rfl
    · rw [takeOutcome_eq htaking, heffect]
      rfl
    · rw [takeOutcome_eq htaking, heffect]
      rfl
  · exact frameEnd_take hearing hleaving hr hphase hk hq (by rw [QueueEntry.key, hlot, hstep]) hcede hz hmine hc hloc hdue
  · obtain ⟨h, q, hq, hkey, hcede⟩ := served_eq_some (finish_served s.view s.blocks r hr)
    exact ⟨h, q, hq, congrArg Prod.fst hkey, congrArg Prod.snd hkey, hcede⟩

end Sys2Proof.Machine
end

section
/-! The head after an evaluation of the Dispatch Unit (R90, R91, R94): part of O33. -/

namespace Sys2Proof.Machine

/-! ### The steps and phases of the queue -/

/-- The steps of the Dispatch Queue with their phases. -/
def Blocks.phases (b : Blocks) : List ((Nat × Nat) × EntryPhase) := b.du.queue.map fun e => (e.key, e.phase)

theorem phases_of_queue {b c : Blocks} (h : c.du.queue = b.du.queue) : c.phases = b.phases := by
  rw [Blocks.phases, h]
  rfl

theorem phases_head {b c : Blocks} {x y : QueueEntry} {p q : List QueueEntry} (h : c.phases = b.phases)
    (hb : b.du.queue = x :: p) (hc : c.du.queue = y :: q) : y.key = x.key ∧ y.phase = x.phase := by
  rw [Blocks.phases, Blocks.phases, hb, hc, List.map_cons, List.map_cons] at h
  exact Prod.mk.inj (List.cons.inj h).1

theorem updateEntry_phases {l k : Nat} {f : QueueEntry → QueueEntry} (hf : ∀ e, (f e).key = e.key ∧ (f e).phase = e.phase)
    (b : Blocks) : (updateEntry l k f b).phases = b.phases := by
  simp only [Blocks.phases, updateEntry_du, DispatchUnit.updateEntry, List.map_map]
  refine List.map_congr_left fun e _ => ?_
  simp only [Function.comp]
  split
  · rw [(hf e).1, (hf e).2]
  · rfl

theorem offer_phases (body : FrameBody) (t : Nat) (o : Owner) (host : Bool) (b : Blocks) :
    (offer body t o host b).phases = b.phases := phases_of_queue (offer_reoffers body t o host b).queue

theorem enqueueCede_phases (l k : Nat) (host : Bool) (b : Blocks) : (enqueueCede l k host b).phases = b.phases := by
  unfold enqueueCede
  split
  · rfl
  · exact offer_phases ..

theorem setCede_phases (c : CedeCause) (l k : Nat) (b : Blocks) : (setCede c l k b).phases = b.phases := by
  unfold setCede
  split
  · next e _ =>
    split
    · have hset := updateEntry_phases (l := l) (k := k)
        (f := fun e => { e with cede := some (mergeCause e.cede c) }) (fun _ => ⟨rfl, rfl⟩) b
      have hdue : ∀ d : Blocks, (dueIfReady e (if e.phase == .ready then withdrawAll (isStartOf l k) d else d)).phases
          = d.phases := fun d => by
        unfold dueIfReady
        split <;> rfl
      simp only
      split
      · rw [enqueueCede_phases, hdue, hset]
      · rw [hdue, hset]
    · rfl
  · rfl

theorem clearCede_phases (c : CedeCause) (l k : Nat) (b : Blocks) : (clearCede c l k b).phases = b.phases :=
  updateEntry_phases (fun e => by split <;> exact ⟨rfl, rfl⟩) b

theorem holdCede_phases (v : View) (e : QueueEntry) (b : Blocks) : (holdCede v e b).phases = b.phases := by
  unfold holdCede
  split
  · split
    · exact setCede_phases ..
    · rfl
  · split
    · exact clearCede_phases ..
    · rfl

theorem endRequest_phases (b : Blocks) : (endRequest b).phases = b.phases := phases_of_queue (by rw [(endRequest_rest b).1])

theorem chooseKit_phases (v : View) (r : KitRequest) (b : Blocks) : (chooseKit v r b).phases = b.phases := by
  unfold chooseKit
  split
  · exact endRequest_phases b
  · split
    · rfl
    · split
      · rfl
      · split
        · exact offer_phases ..
        · exact (setCede_phases ..).trans (endRequest_phases b)

theorem askKit_phases (v : View) (l k f : Nat) (b : Blocks) : (askKit v l k f b).phases = b.phases := by
  unfold askKit
  split
  · split
    · rfl
    · exact (chooseKit_phases ..).trans (endRequest_phases b)
  · exact chooseKit_phases ..

theorem makeRequests_phases (v : View) (e : QueueEntry) (b : Blocks) : (makeRequests v e b).phases = b.phases := by
  have hasked := updateEntry_phases (l := e.lot) (k := e.step) (f := fun x => { x with asked := true })
    (fun _ => ⟨rfl, rfl⟩) b
  have hband : ∀ c : Blocks, (match bandNeededOf v c e with
      | some x => raise (.bandNeeded e.lot e.step x) c
      | none => c).phases = c.phases := fun c => by split <;> rfl
  unfold makeRequests
  simp only
  split
  · exact (askKit_phases ..).trans ((hband _).trans hasked)
  · exact (hband _).trans hasked

/-! ### Readiness (R91) -/

/-- Readiness reads, of the blocks, the station state, the fitted kit, the band and the ACTIVE slot, and of the entry its
step and its cede cause. -/
theorem ready_congr (v : View) {b c : Blocks} {e f : QueueEntry} (hstation : c.station = b.station) (hhr : c.hr = b.hr)
    (hle : c.le = b.le) (hlot : f.lot = e.lot) (hstep : f.step = e.step) (hcede : f.cede = e.cede) :
    ready v c f = ready v b e := by
  simp only [ready, readyButSlot, entryPair, hstation, hhr, hle, hlot, hstep, hcede]

/-- A ready entry has a fitted kit. -/
theorem ready_fitted {v : View} {b : Blocks} {e : QueueEntry} (h : ready v b e = true) : ∃ k, b.hr.fitted = some k := by
  have hbut := (Bool.and_eq_true_iff.mp h).1
  cases hfitted : b.hr.fitted with
  | some k => exact ⟨k, rfl⟩
  | none =>
    unfold readyButSlot at hbut
    split at hbut
    · split at hbut
      · simp [usableFitted_none v hfitted] at hbut
      · simp at hbut
    · simp at hbut

/-- A ready entry is of a station that works. -/
theorem ready_working {v : View} {b : Blocks} {e : QueueEntry} (h : ready v b e = true) : isWorking b.station = true :=
  (Bool.and_eq_true_iff.mp (Bool.and_eq_true_iff.mp (Bool.and_eq_true_iff.mp h).1).1).1

theorem makeReady_eq {b : Blocks} {e : QueueEntry} {k : Nat} (hfitted : b.hr.fitted = some k)
    (h : acceptsFrames b.station = true) :
    makeReady e b = { updateEntry e.lot e.step (fun e => { e with phase := .ready }) b with
      lc := offerLc (internal (.stepStart e.lot e.step k) .du) b.lc } := by
  rw [makeReady, hfitted]
  exact if_pos h

/-- A PREPARING head that is ready becomes READY, with its STEP START offered. -/
theorem headReady_eq {v : View} {b : Blocks} {h : QueueEntry} {k : Nat} (hphase : h.phase = .preparing)
    (hready : ready v b h = true) (hfitted : b.hr.fitted = some k) :
    headReady v h b = { updateEntry h.lot h.step (fun e => { e with phase := .ready }) b with
      lc := offerLc (internal (.stepStart h.lot h.step k) .du) b.lc } := by
  have hcond : (h.phase == .preparing && ready v b h) = true := by rw [hphase, hready]; rfl
  rw [headReady, if_pos hcond, makeReady_eq hfitted (accepts_of_working (ready_working hready))]

/-! ### The head's phase (R90, R91) -/

theorem withHead_cons {f : QueueEntry → Blocks → Blocks} {b : Blocks} {h : QueueEntry} {q : List QueueEntry}
    (hq : b.du.queue = h :: q) : withHead f b = f h b := by
  simp only [withHead, hq]

theorem withHead_nil {f : QueueEntry → Blocks → Blocks} {b : Blocks} (hq : b.du.queue = []) : withHead f b = b := by
  simp only [withHead, hq]

/-- The head of a queue, where its own entry has been changed. -/
theorem updateEntry_self {b : Blocks} {h : QueueEntry} {q : List QueueEntry} (f : QueueEntry → QueueEntry)
    (hq : b.du.queue = h :: q) : (updateEntry h.lot h.step f b).du.queue.head? = some (f h) := by
  rw [updateEntry_head _ _ f hq, beq_self_eq_true, beq_self_eq_true, Bool.and_self, if_pos rfl]

section
variable {v : View} {b : Blocks} {h : QueueEntry} {q : List QueueEntry}

theorem head_eq {x : QueueEntry} (hq : b.du.queue = h :: q) (hx : b.du.queue.head? = some x) : h = x := by
  rw [hq] at hx
  exact Option.some.inj hx

/-- After the fall back of a READY head (R91). -/
theorem headFalls_cases (hq : (withHead (headFalls v) b).du.queue = h :: q) :
    h.phase = .preparing ∨ withHead (headFalls v) b = b ∧ (h.phase = .ready → ready v b h = true) := by
  cases hb : b.du.queue with
  | nil =>
    rw [withHead_nil hb, hb] at hq
    cases hq
  | cons z p =>
    rw [withHead_cons hb] at hq ⊢
    unfold headFalls at hq ⊢
    split at hq
    · exact .inl (by rw [head_eq hq (updateEntry_self _ hb)])
    · next hcond =>
      rw [if_neg hcond]
      rw [hb] at hq
      obtain ⟨rfl, -⟩ := List.cons.inj hq
      refine .inr ⟨rfl, fun hphase => ?_⟩
      simpa [hphase] using hcond

/-- After the requests of a PREPARING head (R90). -/
theorem headAsks_cases (hq : (withHead (headAsks v) b).du.queue = h :: q) :
    h.phase = .preparing ∨ withHead (headAsks v) b = b := by
  cases hb : b.du.queue with
  | nil => exact .inr (withHead_nil hb)
  | cons z p =>
    rw [withHead_cons hb] at hq ⊢
    unfold headAsks at hq ⊢
    split at hq
    · next hcond =>
      have hphase : z.phase = .preparing := by
        simp only [Bool.and_eq_true] at hcond
        exact eq_of_beq hcond.1.1.1
      exact .inl ((phases_head (makeRequests_phases v z b) hb hq).2.trans hphase)
    · next hcond => exact .inr (if_neg hcond)

/-- After PREPARING has become READY (R91). -/
theorem headReady_cases (hq : (withHead (headReady v) b).du.queue = h :: q) :
    h.phase = .ready ∧ ready v (withHead (headReady v) b) h = true ∨
      withHead (headReady v) b = b ∧ (h.phase = .preparing → ready v b h = false) := by
  cases hb : b.du.queue with
  | nil =>
    rw [withHead_nil hb, hb] at hq
    cases hq
  | cons z p =>
    rw [withHead_cons hb] at hq ⊢
    by_cases hcond : z.phase = .preparing ∧ ready v b z = true
    · obtain ⟨k, hk⟩ := ready_fitted hcond.2
      rw [headReady_eq hcond.1 hcond.2 hk] at hq ⊢
      have hh := head_eq (b := updateEntry z.lot z.step (fun e => { e with phase := .ready }) b) hq (updateEntry_self _ hb)
      subst hh
      exact .inl ⟨rfl, (ready_congr v rfl rfl rfl rfl rfl rfl).trans hcond.2⟩
    · have hself : headReady v z b = b := if_neg (by simpa using hcond)
      rw [hself] at hq ⊢
      rw [hb] at hq
      obtain ⟨rfl, -⟩ := List.cons.inj hq
      exact .inr ⟨rfl, fun hphase => by simpa [hphase] using hcond⟩

end

/-! ### The cede causes HOLD (R94, R95) -/

/-- An event of R94 for an entry behind the head. -/
theorem updateEntry_behind {b : Blocks} {l k : Nat} (f : QueueEntry → QueueEntry)
    (h : ∀ x ∈ b.du.queue.head?, x.key ≠ (l, k)) : (updateEntry l k f b).du.queue.head? = b.du.queue.head? := by
  cases hq : b.du.queue with
  | nil => simp only [updateEntry_du, DispatchUnit.updateEntry, hq, List.map_nil]
  | cons x p =>
    have hkey : (x.lot == l && x.step == k) = false := by
      have hne := h x (by rw [hq]; rfl)
      simpa [QueueEntry.key] using hne
    rw [updateEntry_head l k f hq, hkey, if_neg Bool.false_ne_true]
    rfl

theorem setCede_behind {b : Blocks} {l k : Nat} (c : CedeCause) (h : ∀ x ∈ b.du.queue.head?, x.key ≠ (l, k)) :
    (setCede c l k b).du.queue.head? = b.du.queue.head? ∧ (setCede c l k b).hr = b.hr := by
  unfold setCede
  split
  · next e _ =>
    split
    · have hset := updateEntry_behind (fun e => { e with cede := some (mergeCause e.cede c) }) h
      have hdue : ∀ d : Blocks, (dueIfReady e (if e.phase == .ready then withdrawAll (isStartOf l k) d else d)).du.queue
          = d.du.queue ∧ (dueIfReady e (if e.phase == .ready then withdrawAll (isStartOf l k) d else d)).hr = d.hr :=
        fun d => by
          unfold dueIfReady
          split <;> exact ⟨rfl, rfl⟩
      have hcede : ∀ (host : Bool) (d : Blocks), (enqueueCede l k host d).du.queue = d.du.queue ∧
          (enqueueCede l k host d).hr = d.hr := fun host d => by
        unfold enqueueCede
        split
        · exact ⟨rfl, rfl⟩
        · exact ⟨(offer_reoffers ..).queue, (offer_reoffers ..).hr⟩
      simp only
      split
      · rw [(hcede _ _).1, (hcede _ _).2, (hdue _).1, (hdue _).2]
        exact ⟨hset, rfl⟩
      · rw [(hdue _).1, (hdue _).2]
        exact ⟨hset, rfl⟩
    · exact ⟨rfl, rfl⟩
  · exact ⟨rfl, rfl⟩

theorem holdCede_behind {v : View} {b : Blocks} {e : QueueEntry} (h : ∀ x ∈ b.du.queue.head?, x.key ≠ e.key) :
    (holdCede v e b).du.queue.head? = b.du.queue.head? ∧ (holdCede v e b).hr = b.hr := by
  unfold holdCede
  split
  · split
    · exact setCede_behind _ h
    · exact ⟨rfl, rfl⟩
  · split
    · exact ⟨updateEntry_behind _ h, rfl⟩
    · exact ⟨rfl, rfl⟩

theorem holdCedes_behind {v : View} : ∀ (es : List QueueEntry) {b : Blocks},
    (∀ x ∈ b.du.queue.head?, ∀ e ∈ es, x.key ≠ e.key) →
    (holdCedes v es b).du.queue.head? = b.du.queue.head? ∧ (holdCedes v es b).hr = b.hr
  | [], _, _ => ⟨rfl, rfl⟩
  | e :: es, b, h => by
    obtain ⟨hhead, hhr⟩ := holdCede_behind (v := v) fun x hx => h x hx e List.mem_cons_self
    obtain ⟨khead, khr⟩ := holdCedes_behind es (b := holdCede v e b) fun x hx y hy =>
      h x (hhead ▸ hx) y (List.mem_cons_of_mem _ hy)
    exact ⟨khead.trans hhead, khr.trans hhr⟩

/-- Coverage reads an entry's step and phase (R94). -/
theorem entryCovered_entry (v : View) (b : Blocks) {e f : QueueEntry} (hkey : f.key = e.key) (hphase : f.phase = e.phase) :
    entryCovered v b f = entryCovered v b e := by
  have hlot : f.lot = e.lot := congrArg Prod.fst hkey
  have hstep : f.step = e.step := congrArg Prod.snd hkey
  simp only [entryCovered, entryKit, hlot, hstep, hphase]

/-- The head with cede cause HOLD once its own cede cause has been judged is covered. -/
theorem holdCede_head {v : View} {b : Blocks} {z h : QueueEntry} {p q : List QueueEntry} (hb : b.du.queue = z :: p)
    (hq : (holdCede v z b).du.queue = h :: q) (hcede : h.cede = some .hold) : entryCovered v b z = true := by
  by_cases hcovered : entryCovered v b z = true
  · exact hcovered
  · exfalso
    unfold holdCede at hq
    rw [if_neg hcovered] at hq
    split at hq
    · next hhold =>
      have hh := head_eq (b := updateEntry z.lot z.step
        (fun e => if e.cede == some .hold then { e with cede := none, asked := false } else e) b) hq (updateEntry_self _ hb)
      rw [if_pos hhold] at hh
      rw [hh] at hcede
      cases hcede
    · next hhold =>
      rw [hb] at hq
      obtain ⟨rfl, -⟩ := List.cons.inj hq
      exact hhold (by rw [hcede]; rfl)

/-- After the cede causes HOLD of a queue that names no step twice, a head that has one is covered. -/
theorem holdCedes_head {v : View} {b : Blocks} {h : QueueEntry} {q : List QueueEntry} (hnodup : b.steps.Nodup)
    (hq : (holdCedes v b.du.queue b).du.queue = h :: q) (hcede : h.cede = some .hold) :
    entryCovered v (holdCedes v b.du.queue b) h = true := by
  have hsteps : (holdCedes v b.du.queue b).steps = b.steps := (holdCedes_evolves v b.du.queue b).steps
  cases hb : b.du.queue with
  | nil =>
    rw [Blocks.steps, Blocks.steps, hq, hb] at hsteps
    cases hsteps
  | cons z p =>
    rw [hb] at hq
    rw [Blocks.steps, hb, List.map_cons, List.nodup_cons] at hnodup
    have hphases := holdCede_phases v z b
    obtain ⟨x, r, hx⟩ : ∃ x r, (holdCede v z b).du.queue = x :: r := by
      rw [Blocks.phases, Blocks.phases, hb, List.map_cons] at hphases
      obtain ⟨x, r, hx, -⟩ := List.map_eq_cons_iff.mp hphases
      exact ⟨x, r, hx⟩
    obtain ⟨hkey, hphase⟩ := phases_head hphases hb hx
    obtain ⟨hhead, hhr⟩ := holdCedes_behind (v := v) p (b := holdCede v z b) fun y hy e he => by
      rw [hx] at hy
      cases hy
      rw [hkey]
      exact fun hsame => hnodup.1 (hsame ▸ List.mem_map_of_mem he)
    have hh : h = x := head_eq hq (hhead.trans (by rw [hx]; rfl))
    subst hh
    have hcovered := holdCede_head hb hx hcede
    have hfirst : (holdCede v z b).hr.fitted = b.hr.fitted := by
      have hcore := congrArg (fun c : Blocks => c.hr.fitted) (holdCede_evolves v z b).core
      exact hcore
    have hfitted : (holdCedes v (z :: p) b).hr.fitted = b.hr.fitted :=
      (congrArg HandlerRecord.fitted hhr).trans hfirst
    rw [entryCovered_congr hfitted, entryCovered_entry v b hkey hphase]
    exact hcovered

theorem oweCedes_queue : ∀ (es : List QueueEntry) (b : Blocks), (oweCedes es b).du.queue = b.du.queue
  | [], _ => rfl
  | e :: es, b => by
    refine (oweCedes_queue es _).trans ?_
    split
    · split
      · unfold enqueueCede
        split
        · rfl
        · exact (offer_reoffers ..).queue
      · rfl
    · rfl

/-- After the cede causes have been judged, the head of a working station that has none is not WON (R90, R95). -/
theorem resumed_not_won {v : View} {b : Blocks} {h : QueueEntry} {q : List QueueEntry} (hnodup : b.steps.Nodup)
    (hq : (b.resumed v).du.queue = h :: q) (hworking : isWorking b.station = true) (hcede : h.cede = none) :
    h.phase ≠ .won := by
  intro hwon
  obtain ⟨d, hd⟩ : ∃ d, d = enterHead (computeAllNeeds v b.du.queue b) := ⟨_, rfl⟩
  obtain ⟨c, hc⟩ : ∃ c, c = holdCedes v d.du.queue d := ⟨_, rfl⟩
  have hresumed : b.resumed v = withHead (holdCede v) (enterHead c) := by
    rw [hc, hd]
    rfl
  have hevolves : Evolves b c := by
    rw [hc, hd]
    exact ((computeAllNeeds_evolves v _ b).trans (enterHead_evolves _)).trans (holdCedes_evolves v _ _)
  have hdsteps : d.steps.Nodup := by
    rw [hd, ((computeAllNeeds_evolves v _ b).trans (enterHead_evolves _)).steps]
    exact hnodup
  rw [hresumed] at hq
  cases hcq : c.du.queue with
  | nil =>
    have hentered : enterHead c = c := withHead_nil hcq
    rw [hentered, withHead_nil hcq, hcq] at hq
    cases hq
  | cons z p =>
    by_cases henters : z.phase = .won ∧ z.cede = none
    · have hentered : enterHead c
          = updateEntry z.lot z.step (fun e => { e with phase := .preparing, asked := false }) c := by
        have hcond : (z.phase == .won && isWorking c.station && z.cede.isNone) = true := by
          rw [henters.1, henters.2, hevolves.station, hworking]
          rfl
        exact (withHead_cons hcq).trans (if_pos hcond)
      have hhead := updateEntry_self (fun e => { e with phase := .preparing, asked := false }) hcq
      rw [← hentered] at hhead
      obtain ⟨r, hr⟩ := List.head?_eq_some_iff.mp hhead
      rw [withHead_cons hr] at hq
      have hphase := (phases_head (holdCede_phases v _ _) hr hq).2
      rw [hwon] at hphase
      cases hphase
    · have hentered : enterHead c = c := by
        have hcond : ¬(z.phase == .won && isWorking c.station && z.cede.isNone) = true := by
          intro hcond
          simp only [Bool.and_eq_true] at hcond
          exact henters ⟨eq_of_beq hcond.1.1, Option.isNone_iff_eq_none.mp hcond.2⟩
        exact (withHead_cons hcq).trans (if_neg hcond)
      rw [hentered, withHead_cons hcq] at hq
      have hphase := (phases_head (holdCede_phases v z c) hcq hq).2
      have hzcede : z.cede ≠ none := fun hnone => henters ⟨hphase.symm.trans hwon, hnone⟩
      have hself : holdCede v z c = c := by
        unfold holdCede
        split
        · exact if_neg fun hcond => hzcede (by
            simp only [Bool.and_eq_true] at hcond
            exact Option.isNone_iff_eq_none.mp hcond.1.2)
        · next huncovered =>
          refine if_neg fun hhold => huncovered ?_
          have hcovered := holdCedes_head hdsteps (by rw [← hc]; exact hcq) (eq_of_beq hhold)
          rw [← hc] at hcovered
          exact hcovered
      rw [hself, hcq] at hq
      obtain ⟨rfl, -⟩ := List.cons.inj hq
      exact hzcede hcede

/-- The head after an evaluation: not WON on a working station without a cede cause, and READY exactly while it is
ready. -/
theorem evaluateDispatch_head {v : View} {b : Blocks} {h : QueueEntry} {q : List QueueEntry} (hnodup : b.steps.Nodup)
    (hq : (evaluateDispatch v b).du.queue = h :: q) :
    (isWorking b.station = true → h.cede = none → h.phase ≠ .won) ∧
    (h.phase = .preparing ∨ h.phase = .ready → (h.phase = .ready ↔ ready v (evaluateDispatch v b) h = true)) := by
  obtain ⟨d0, hd0⟩ : ∃ d, d = (b.resumed v).owing := ⟨_, rfl⟩
  obtain ⟨d1, hd1⟩ : ∃ d, d = withHead (headFalls v) d0 := ⟨_, rfl⟩
  obtain ⟨d2, hd2⟩ : ∃ d, d = withHead (headAsks v) d1 := ⟨_, rfl⟩
  obtain ⟨d3, hd3⟩ : ∃ d, d = withHead (headReady v) d2 := ⟨_, rfl⟩
  have heq : evaluateDispatch v b = evaluateDeference v d3 := by
    rw [hd3, hd2, hd1, hd0]
    rfl
  have hrest := evaluateDeference_reoffers v d3
  have hready : ready v (evaluateDispatch v b) h = ready v d3 h := by
    rw [heq]
    exact ready_congr v hrest.station hrest.hr (evaluateDeference_works v d3).le rfl rfl rfl
  rw [heq, hrest.queue] at hq
  rw [hready]
  rcases headReady_cases (v := v) (b := d2) (by rw [← hd3]; exact hq) with ⟨hphase, hr⟩ | ⟨hsame, hnot⟩
  · rw [← hd3] at hr
    exact ⟨fun _ _ => by rw [hphase]; decide, fun _ => ⟨fun _ => hr, fun _ => hphase⟩⟩
  · rw [← hd3] at hsame
    rw [hsame] at hq ⊢
    rcases headAsks_cases (v := v) (b := d1) (by rw [← hd2]; exact hq) with hphase | hsame
    · refine ⟨fun _ _ => by rw [hphase]; decide, fun _ => ?_⟩
      rw [hnot hphase, hphase]
      simp
    · rw [← hd2] at hsame
      rw [hsame] at hq hnot ⊢
      rcases headFalls_cases (v := v) (b := d0) (by rw [← hd1]; exact hq) with hphase | ⟨hsame, hstays⟩
      · refine ⟨fun _ _ => by rw [hphase]; decide, fun _ => ?_⟩
        rw [hnot hphase, hphase]
        simp
      · rw [← hd1] at hsame
        rw [hsame] at hq hnot ⊢
        refine ⟨fun hworking hcede => ?_, fun hphase => ⟨hstays, fun hr => ?_⟩⟩
        · rw [hd0, Blocks.owing, oweCedes_queue] at hq
          exact resumed_not_won hnodup hq hworking hcede
        · rcases hphase with hphase | hphase
          · rw [hnot hphase] at hr
            cases hr
          · exact hphase

end Sys2Proof.Machine
end

section
/-! The life of a Dispatch Queue entry (R82, R86, R88, R92): O33 put together. -/

namespace Sys2Proof.Machine

/-! ### What a signal leaves alone before the Dispatch Unit acts -/

theorem markEntries_rest (v : View) (sig : Signal) (b : Blocks) : (markEntries v sig b).hr = b.hr ∧
    (markEntries v sig b).le = b.le ∧ (markEntries v sig b).du.leaving = b.du.leaving ∧
    (markEntries v sig b).du.queue = b.du.queue.map (markEntry v sig) := by
  unfold markEntries
  simp only
  split <;> exact ⟨rfl, rfl, rfl, rfl⟩

theorem markEntries_steps (v : View) (sig : Signal) (b : Blocks) : (markEntries v sig b).steps = b.steps :=
  (markEntries_quiet v sig b).steps

/-- An entry whose step is this station's after the application as before it keeps its marks, while its lot stands. -/
theorem markEntry_mine {v : View} {sig : Signal} {e : QueueEntry} (h : stillMine v e = true) : markEntry v sig e = e := by
  have hleft : leftNow v sig e = false := by rw [leftNow, h, Bool.not_true, Bool.and_false]
  have hlot : (v.rep.lot? e.lot).isNone = false := by
    cases hl : v.rep.lot? e.lot with
    | some l => rfl
    | none =>
      rw [stillMine, Replica.step?, hl] at h
      cases h
  have hgone : lotGone v sig e = false := by rw [lotGone, hlot, Bool.and_false]
  simp only [markEntry, hleft, hgone, Bool.false_and, Bool.false_eq_true, if_false]

/-! ### An own BID heard with effect (R86) -/

theorem steps_of_queue {b c : Blocks} (h : c.du.queue = b.du.queue) : c.steps = b.steps := by
  rw [Blocks.steps, h]
  rfl

theorem reconcile_shown {v : View} {b : Blocks} (a : Bool) (h : ∀ key ∈ b.steps, v.shows key = true) :
    (reconcile v a b).steps = b.steps :=
  steps_of_queue (reconcile_mine a fun e he => h e.key (List.mem_map_of_mem he))

theorem unpark_shown {v : View} {b : Blocks} (h : ∀ key ∈ b.steps, v.shows key = true) :
    (unpark v b).steps = b.steps := by
  unfold unpark
  split
  · have hsteps : (orphanCheck v (enterState v .active b)).steps = b.steps :=
      (steps_of_queue (orphanCheck_reoffers v _).queue).trans (congrArg Lane.steps (enterState_enters v .active b).lane)
    rw [reconcile_shown false (by rw [hsteps]; exact h), hsteps]
  · rfl

theorem claimWon_eq {v : View} {lot k : Nat} {b : Blocks} {y : StepRec} (hy : v.rep.step? lot k = some y)
    (hl : b.du.leaving = false) :
    claimWon v lot k b = raise (.claimWon lot k (tier v b y.spec)) (queueWon lot k b) := by
  have hnot : ¬b.du.leaving = true := by rw [hl]; exact Bool.false_ne_true
  simp only [claimWon, hy]
  exact if_neg hnot

/-- The signal of an own BID with effect, where the queue is this station's. -/
theorem signalBlocks_bid {v : View} {sig : Signal} {b : Blocks} {lot k : Nat} {y : StepRec} (hbody : sig.body = .bid lot k)
    (hown : sig.own = true) (heffect : sig.effect = true) (hy : v.rep.step? lot k = some y)
    (hmine : ∀ key ∈ b.steps ++ [(lot, k)], v.shows key = true) (hl : b.du.leaving = false) :
    (signalBlocks v sig b).steps = b.steps ++ [(lot, k)] ∧
      (signalBlocks v sig b).reported (.claimWon lot k (tier v b y.spec)) := by
  obtain ⟨hhr, hle, hleaving, -⟩ := markEntries_rest v sig b
  have htier : tier v (markEntries v sig b) y.spec = tier v b y.spec := by simp only [tier, hhr, hle]
  have hnotices : replicaNotices v sig b = b := by simp only [replicaNotices, hbody]
  have hdispatch : dispatchOutcome v sig (markEntries v sig b)
      = raise (.claimWon lot k (tier v b y.spec)) (queueWon lot k (markEntries v sig b)) := by
    simp only [dispatchOutcome, hbody, hown, heffect, Bool.and_self, if_true]
    rw [claimWon_eq hy (hleaving.trans hl), htier]
  have hwatch : ∀ d, watchOutcome v sig d = d := fun d => by simp only [watchOutcome, hbody]
  have hpresence : ∀ d, presenceOutcome v sig d = unpark v d := fun d => by
    simp only [presenceOutcome, hbody, hown, if_true]
  have hhandler : ∀ d, handlerOutcome v sig d = d := fun d => by simp only [handlerOutcome, hbody]
  have hcell : ∀ d, cellOutcome v sig d = d := fun d => by simp only [cellOutcome, hbody]
  obtain ⟨c, hc⟩ : ∃ c, c = raise (.claimWon lot k (tier v b y.spec)) (queueWon lot k (markEntries v sig b)) := ⟨_, rfl⟩
  have hsteps : c.steps = b.steps ++ [(lot, k)] := by
    have hmarked := markEntries_steps v sig b
    rw [hc, ← hmarked]
    simp only [Blocks.steps, queueWon, raise_du, List.map_append, List.map_cons, List.map_nil, QueueEntry.key]
  have hreported : c.reported (.claimWon lot k (tier v b y.spec)) := by
    rw [hc]
    exact raise_reported _ _
  have hreconciled : (enterHead (reconcileOn v sig c)).steps = b.steps ++ [(lot, k)] := by
    rw [(enterHead_evolves _).steps, ← hsteps, reconcileOn]
    split
    · exact reconcile_shown false (by rw [hsteps]; exact hmine)
    · rfl
  have hattends : Attends c (enterHead (reconcileOn v sig c)) :=
    Attends.trans (b := reconcileOn v sig c) (.ite (reconcile_attends v false c) (.refl c)) (enterHead_evolves _).attends
  have hlast := releaseChecks_reoffers v (unpark v (enterHead (reconcileOn v sig c)))
  have hsignal : signalBlocks v sig b
      = markDue (releaseChecks v (unpark v (enterHead (reconcileOn v sig c)))) := by
    rw [hc]
    simp only [signalBlocks, hnotices, hdispatch, hwatch, hpresence, hhandler, hcell]
  rw [hsignal]
  refine ⟨?_, ?_⟩
  · refine (steps_of_queue hlast.queue).trans ?_
    rw [unpark_shown (by rw [hreconciled]; exact hmine), hreconciled]
  · exact (((hattends.trans (unpark_attends v _)).trans (releaseChecks_attends v _)).trans
      (markDue_attends _)).reported _ hreported

/-- An own BID heard with effect adds its step behind the others, and CLAIM WON is raised with the tier. -/
theorem frameEnd_bid {s : State} {auth : Level} {lot k e : Nat} {l : LotRec} {y : StepRec}
    (hl : s.re.replica.lot? lot = some l) (hy : l.step? k = some y) (hstate : y.state = .waiting e)
    (hsuspended : l.suspended = false) (hleaving : s.blocks.du.leaving = false)
    (hmine : ∀ q ∈ s.blocks.du.queue, ∃ z, s.re.replica.step? q.lot q.step = some z ∧
      z.state.heldBy s.stationId = true)
    (h : s.Hearing .own s.stationId auth (.bid lot k)) :
    ∃ t, exec (.frameEnd .own) s = .next t ∧ t.blocks.steps = s.blocks.steps ++ [(lot, k)] ∧
      t.blocks.reported (.claimWon lot k (tier s.view s.blocks y.spec)) := by
  obtain ⟨t, ht, -, hblocks⟩ := frameEnd_own_blocks h
  have hx := step?_of_lot hl hy
  have heffect : takesEffect s.re.replica s.config.authority s.stationId (.bid lot k) = true := by
    simp only [takesEffect, biddable, hl, hy, hstate, hsuspended, StepState.isWaiting, Bool.not_false, Bool.and_self]
  have hrep : (s.applied (.bid lot k)).rep = s.re.replica.withStep lot k (.claimed s.stationId y.state.entered) :=
    applyBody_setStep hx heffect rfl
  have hclaimed : (s.applied (.bid lot k)).rep.step? lot k = some ⟨y.spec, .claimed s.stationId y.state.entered⟩ := by
    rw [hrep, withStep_same _ hl hy]
  have htier : tier (s.applied (.bid lot k)) { s.blocks with lc := s.blocks.lc.sent } y.spec
      = tier s.view s.blocks y.spec := by
    have hserves : ∀ (family : Nat) (loc : KitLocation) (c : KitRec),
        kitServes (s.applied (.bid lot k)).rep family loc c = kitServes s.re.replica family loc c := fun _ _ _ => by
      rw [hrep]
      rfl
    have hkit : ∀ n, (s.applied (.bid lot k)).rep.kit? n = s.re.replica.kit? n := fun n => by
      rw [hrep]
      rfl
    have hid : (s.applied (.bid lot k)).id = s.view.id := rfl
    have hview : s.view.rep = s.re.replica := rfl
    simp only [tier, usableFitted, hkit, hserves, hid, hview]
  have hshows : ∀ key ∈ ({ s.blocks with lc := s.blocks.lc.sent } : Blocks).steps ++ [(lot, k)],
      (s.applied (.bid lot k)).shows key = true := by
    intro key hkey
    rcases List.mem_append.mp hkey with hold | hnew
    · obtain ⟨q, hq, rfl⟩ := List.mem_map.mp hold
      obtain ⟨z, hz, hheld⟩ := hmine q hq
      have hne : q.key ≠ (lot, k) := fun hsame => by
        have hlot : q.lot = lot := congrArg Prod.fst hsame
        have hnum : q.step = k := congrArg Prod.snd hsame
        rw [hlot, hnum, hx] at hz
        obtain rfl := Option.some.inj hz
        rw [hstate] at hheld
        cases hheld
      change stillMine (s.applied (.bid lot k)) q = true
      rw [stillMine, hrep, withStep_other _ hne, hz]
      exact hheld
    · obtain rfl := List.mem_singleton.mp hnew
      rw [View.shows, hclaimed]
      exact (by simp [StepState.heldBy, StepState.claimedBy] : StepState.heldBy (.claimed s.stationId _) s.stationId = true)
  obtain ⟨hsteps, hreported⟩ := signalBlocks_bid (v := s.applied (.bid lot k)) (sig := s.signal (.bid lot k))
    (b := { s.blocks with lc := s.blocks.lc.sent }) rfl rfl heffect hclaimed hshows hleaving
  have hevolves := finish_evolves (s.applied (.bid lot k)) (signalBlocks (s.applied (.bid lot k)) (s.signal (.bid lot k))
    { s.blocks with lc := s.blocks.lc.sent }) ((signalBlocks_attends _ _ _).leaving hleaving)
  refine ⟨t, ht, ?_, ?_⟩
  · rw [hblocks, hevolves.steps, hsteps]
    rfl
  · rw [hblocks, ← htier]
    exact hevolves.reported hreported

/-! ### An own STEP START heard with effect (R92, R134, R142) -/

theorem updateRelease_apart (lot : Nat) (f : ReleaseRec → ReleaseRec) (b : Blocks) : Apart b (updateRelease lot f b) :=
  ⟨rfl, rfl, rfl, rfl, rfl⟩

/-- The release check works on its own records and the Send Queue. -/
theorem checkOwned_apart (v : View) (l : LotRec) (b : Blocks) : Apart b (checkOwned v l b) := by
  have hensure : Apart b (ensureRelease l.lot b) := by
    unfold ensureRelease
    split <;> exact ⟨rfl, rfl, rfl, rfl, rfl⟩
  have hcount : ∀ c, Apart c (countHold v l.lot c) := fun c => by
    unfold countHold
    split
    · exact .ite (.refl c) ((updateRelease_apart _ _ c).trans (autoHold_apart ..))
    · exact .refl c
  have hship : ∀ c, Apart c (enqueueShip l c) := fun c => by
    unfold enqueueShip
    split
    · exact .ite (.refl c) ((updateRelease_apart _ _ c).trans (offer_apart ..))
    · exact .refl c
  have hwaits : ∀ c, Apart c (releaseWaiting l.lot c) := fun c => by
    unfold releaseWaiting
    split
    · exact (updateRelease_apart _ _ c).trans (.ite (raise_apart _ _) (.refl _))
    · exact .refl c
  exact hensure.trans (.ite ((updateRelease_apart _ _ _).trans (hcount _))
    (.ite (updateRelease_apart _ _ _) (.ite ((updateRelease_apart _ _ _).trans (hship _)) (hwaits _))))

theorem releaseChecks_apart (v : View) (b : Blocks) : Apart b (releaseChecks v b) := by
  have hprune : ∀ (rs : List ReleaseRec) (c : Blocks), Apart c (pruneReleases v rs c) := by
    intro rs
    induction rs with
    | nil => exact .refl
    | cons r rs ih =>
      intro c
      rw [pruneReleases]
      refine Apart.trans (.ite (.refl c) (.ite ?_ ?_)) (ih _) <;> exact ⟨rfl, rfl, rfl, rfl, rfl⟩
  have hcheck : ∀ (ls : List LotRec) (c : Blocks), Apart c (checkLots v ls c) := by
    intro ls
    induction ls with
    | nil => exact .refl
    | cons l ls ih => exact fun c => Apart.trans (.ite (checkOwned_apart v l c) (.refl c)) (ih _)
  exact .ite ((hprune _ _).trans (hcheck _ _)) (.refl b)

theorem reconcile_counters (v : View) (a : Bool) (b : Blocks) : (reconcile v a b).iw.counters = b.iw.counters := by
  have hremove : ∀ (e : QueueEntry) (c : Blocks), (removeEntry v a e c).iw.counters = c.iw.counters := fun e c => by
    have hdrop := (dropEntry_rest e c).2.2.1
    cases h : lostCause v a e with
    | none =>
      rw [removeEntry_ended h]
      exact hdrop
    | some x =>
      have hreport : (reportLost e x (dropEntry e c)).iw = (dropEntry e c).iw := by
        unfold reportLost
        split
        · rfl
        · split <;> rfl
      rw [removeEntry_lost h, hreport]
      exact hdrop
  have hlost : ∀ (es : List QueueEntry) (c : Blocks), (removeLost v a es c).iw.counters = c.iw.counters := by
    intro es
    induction es with
    | nil => exact fun _ => rfl
    | cons e es ih =>
      intro c
      rw [removeLost, ih]
      split
      · rfl
      · exact hremove e c
  rw [reconcile, (upkeepRequest_works _).iw, hlost]

/-- A head in run whose step is this station's stays the head. -/
theorem reconcile_inRun {v : View} {b : Blocks} {x : Nat × Nat × EntryPhase} (a : Bool) (h : b.inRun = some x)
    (hmine : v.shows (x.1, x.2.1) = true) : (reconcile v a b).inRun = some x := by
  obtain ⟨e, q, hq, hlot, hstep, hphase⟩ := inRun_eq_some h
  have hhead : stillMine v e = true := by rw [stillMine_eq_shows, QueueEntry.key, hlot, hstep, hmine]
  have hqueue : (reconcile v a b).du.queue = e :: q.filter (stillMine v) := by
    rw [reconcile_queue, hq, List.filter_cons_of_pos hhead]
  rw [inRun_cons hqueue, ← inRun_cons hq, h]

theorem inRun_of_queue {b c : Blocks} (h : c.du.queue = b.du.queue) : c.inRun = b.inRun := by
  rw [Blocks.inRun, h]
  rfl

/-- The Step Counters of a step that starts (R134). -/
def freshCounters (lot k kit : Nat) (y : StepRec) : StepCounters :=
  ⟨some lot, k, y.state.entered, 0, 0, 0, 0, 0, false, y.spec.passBins, kit⟩

/-- A started step: the head in run, its counters fresh and the Yield Window empty. -/
structure Started (lot k : Nat) (c : StepCounters) (b : Blocks) : Prop where
  runs : b.inRun = some (lot, k, .running)
  counters : b.iw.counters = c
  window : b.iw.window = []

theorem stepStarted_started {v : View} {b : Blocks} {h : QueueEntry} {q : List QueueEntry} {y : StepRec} (kit : Nat)
    (hq : b.du.queue = h :: q) (hl : b.du.leaving = false) (hy : v.rep.step? h.lot h.step = some y) :
    Started h.lot h.step (freshCounters h.lot h.step kit y) (stepStarted v h.lot h.step kit b) := by
  obtain ⟨c, hc⟩ : ∃ c, c = startCount v h.lot h.step kit (updateEntry h.lot h.step (fun e => { e with phase := .running }) b) :=
    ⟨_, rfl⟩
  have hcounted : c = { updateEntry h.lot h.step (fun e => { e with phase := .running }) b with
      iw := { b.iw with counters := freshCounters h.lot h.step kit y, window := [] } } := by
    rw [hc]
    simp only [startCount, hy]
    rfl
  have hstays : stepStarted v h.lot h.step kit b = c := by
    have hleaving : c.du.leaving = false := by rw [hcounted]; exact hl
    change abandonLeave .stepRunning (startCount v h.lot h.step kit
      (updateEntry h.lot h.step (fun e => { e with phase := .running }) b)) = c
    rw [← hc, abandonLeave, hleaving]
    rfl
  rw [hstays, hcounted]
  obtain ⟨p, hp⟩ := List.head?_eq_some_iff.mp (updateEntry_self (fun e => { e with phase := .running }) hq)
  refine ⟨?_, rfl, rfl⟩
  refine (inRun_of_queue (b := updateEntry h.lot h.step (fun e => { e with phase := .running }) b) rfl).trans ?_
  rw [inRun_cons hp]
  rfl

theorem Started.reconcileOn {v : View} {sig : Signal} {lot k : Nat} {c : StepCounters} {b : Blocks}
    (h : Started lot k c b) (hmine : v.shows (lot, k) = true) : Started lot k c (reconcileOn v sig b) := by
  unfold Machine.reconcileOn
  split
  · have hyield := reconcile_yield v false b
    simp only [Blocks.yield, Prod.mk.injEq] at hyield
    exact ⟨reconcile_inRun false h.runs hmine, (reconcile_counters v false b).trans h.counters,
      hyield.2.1.trans h.window⟩
  · exact h

theorem Started.of_works {lot k : Nat} {c : StepCounters} {b d : Blocks} (h : Started lot k c b) (hw : Works b d) :
    Started lot k c d := ⟨hw.runs _ h.runs, by rw [hw.iw]; exact h.counters, by rw [hw.iw]; exact h.window⟩

theorem Started.of_apart {lot k : Nat} {c : StepCounters} {b d : Blocks} (h : Started lot k c b) (ha : Apart b d) :
    Started lot k c d :=
  ⟨(inRun_of_queue ha.queue).trans h.runs, ha.counters.trans h.counters, ha.window.trans h.window⟩

/-- The signal of an own STEP START with effect for the head. -/
theorem signalBlocks_stepStart {v : View} {sig : Signal} {b : Blocks} {h : QueueEntry} {q : List QueueEntry} {kit : Nat}
    {y : StepRec} (hbody : sig.body = .stepStart h.lot h.step kit) (hown : sig.own = true) (heffect : sig.effect = true)
    (hq : b.du.queue = h :: q) (hl : b.du.leaving = false) (hy : v.rep.step? h.lot h.step = some y)
    (hmine : stillMine v h = true) :
    Started h.lot h.step (freshCounters h.lot h.step kit y) (signalBlocks v sig b) := by
  obtain ⟨-, -, hleaving, hqueue⟩ := markEntries_rest v sig b
  have hmarked : (markEntries v sig b).du.queue = h :: q.map (markEntry v sig) := by
    rw [hqueue, hq, List.map_cons, markEntry_mine hmine]
  have hstarted := stepStarted_started (v := v) kit hmarked (hleaving.trans hl) hy
  have hnotices : replicaNotices v sig b = b := by simp only [replicaNotices, hbody]
  have hdispatch : dispatchOutcome v sig (markEntries v sig b) = stepStarted v h.lot h.step kit (markEntries v sig b) := by
    simp only [dispatchOutcome, hbody, hown, heffect, Bool.and_self, if_true]
  have hwatch : ∀ d, watchOutcome v sig d = d := fun d => by simp only [watchOutcome, hbody]
  have hpresence : ∀ d, presenceOutcome v sig d = d := fun d => by simp only [presenceOutcome, hbody]
  have hhandler : ∀ d, handlerOutcome v sig d = d := fun d => by simp only [handlerOutcome, hbody]
  have hcell : ∀ d, cellOutcome v sig d = d := fun d => by simp only [cellOutcome, hbody]
  simp only [signalBlocks, hnotices, hdispatch, hwatch, hpresence, hhandler, hcell]
  exact (((hstarted.reconcileOn hmine).of_works (enterHead_works _)).of_apart (releaseChecks_apart v _)).of_apart
    ⟨rfl, rfl, rfl, rfl, rfl⟩

theorem Evolves.window {b c : Blocks} (h : Evolves b c) : c.iw.window = b.iw.window := by
  have hyield := h.yield
  simp only [Blocks.yield, Prod.mk.injEq] at hyield
  exact hyield.2.1

theorem Started.finish {v : View} {lot k : Nat} {c : StepCounters} {b : Blocks} (h : Started lot k c b)
    (hl : b.du.leaving = false) : Started lot k c (finish v b) :=
  ⟨finish_runs v hl h.runs, (finish_evolves v b hl).counters.trans h.counters,
    (finish_evolves v b hl).window.trans h.window⟩

/-- An own STEP START heard with effect makes the head RUNNING. -/
theorem frameEnd_stepStart {s : State} {auth : Level} {kit e : Nat} {l : LotRec} {y : StepRec} {h : QueueEntry}
    {q : List QueueEntry} (hl : s.re.replica.lot? h.lot = some l) (hy : l.step? h.step = some y)
    (hstate : y.state = .claimed s.stationId e) (hq : s.blocks.du.queue = h :: q) (hleaving : s.blocks.du.leaving = false)
    (hearing : s.Hearing .own s.stationId auth (.stepStart h.lot h.step kit)) :
    ∃ t, exec (.frameEnd .own) s = .next t ∧
      Started h.lot h.step ⟨some h.lot, h.step, e, 0, 0, 0, 0, 0, false, y.spec.passBins, kit⟩ t.blocks := by
  obtain ⟨t, ht, -, hblocks⟩ := frameEnd_own_blocks hearing
  have hx := step?_of_lot hl hy
  have heffect : takesEffect s.re.replica s.config.authority s.stationId (.stepStart h.lot h.step kit) = true := by
    change claimedBy s.re.replica h.lot h.step s.stationId = true
    simp only [claimedBy, hx, hstate, StepState.claimedBy, beq_self_eq_true]
  have hrep : (s.applied (.stepStart h.lot h.step kit)).rep
      = s.re.replica.withStep h.lot h.step (.running s.stationId kit y.state.entered) :=
    applyBody_setStep hx heffect rfl
  have hrunning : (s.applied (.stepStart h.lot h.step kit)).rep.step? h.lot h.step
      = some ⟨y.spec, .running s.stationId kit e⟩ := by
    rw [hrep, withStep_same _ hl hy, hstate]
    rfl
  have hmine : stillMine (s.applied (.stepStart h.lot h.step kit)) h = true := by
    rw [stillMine, hrunning]
    exact (by simp [StepState.heldBy, StepState.runningAt] : StepState.heldBy (.running s.stationId kit e) s.stationId = true)
  have hstarted := signalBlocks_stepStart (v := s.applied (.stepStart h.lot h.step kit))
    (sig := s.signal (.stepStart h.lot h.step kit)) (b := { s.blocks with lc := s.blocks.lc.sent }) rfl rfl heffect hq
    hleaving hrunning hmine
  refine ⟨t, ht, ?_⟩
  rw [hblocks]
  exact hstarted.finish ((signalBlocks_attends _ _ _).leaving hleaving)

/-! ### O33 -/

/-- CLAIM LOST of the only entry, where its step has left this station (R88, R147). -/
theorem reconcile_reports {v : View} {after : Bool} {b : Blocks} {e : QueueEntry} (hq : b.du.queue = [e])
    (hgone : stillMine v e = false) :
    (talliedHere v e = true ∨ e.left = some .ended → (reconcile v after b).cli = b.cli) ∧
    (∀ c, lostCause v after e = some c → (reconcile v after b).cli = (reportLost e c (dropEntry e b)).cli ∧
      (reconcile v after b).du.lostAfterTest = (reportLost e c (dropEntry e b)).du.lostAfterTest) := by
  rw [reconcile_single hq hgone, (upkeepRequest_rest _).1, (upkeepRequest_rest _).2]
  refine ⟨fun hor => ?_, fun c hc => ?_⟩
  · have hnone : lostCause v after e = none := if_pos (by simpa using hor)
    rw [removeEntry_ended hnone]
    exact (dropEntry_rest e b).1
  · rw [removeEntry_lost hc]
    exact ⟨rfl, rfl⟩

/-- Settles O33. -/
theorem dispatchQueueLives : Obligations.DispatchQueueLives := by
  refine ⟨fun s auth lot k e l y hl hy hstate hsuspended _ hleaving hmine h =>
      frameEnd_bid hl hy hstate hsuspended hleaving hmine h,
    fun v after b mine hmine => ?_, fun v b h q hnodup hq => evaluateDispatch_head hnodup hq,
    fun v b h kit hphase hready hfitted => headReady_eq hphase hready hfitted,
    fun s auth lot k kit e l y h q hl hy hstate hq hlot hstep hleaving hearing => ?_⟩
  · have hsame : mine = stillMine v := funext fun e => Bool.eq_iff_iff.mpr ((hmine e).trans (stillMine_iff v e).symm)
    subst hsame
    refine ⟨reconcile_queue v after b, fun e hq hgone => ?_⟩
    obtain ⟨hended, hreports⟩ := reconcile_reports (after := after) hq hgone
    refine ⟨hended, fun c htallied hleft hcause => ?_⟩
    obtain ⟨hcli, hlost⟩ := hreports c (lostCause_eq htallied hleft hcause)
    obtain ⟨dcli, -, dcounters, dinsertion, dlost, -⟩ := dropEntry_rest e b
    have hreport := reportLost_cli e c (dropEntry e b)
    rw [dcli, dcounters, dinsertion, dlost] at hreport
    rw [hcli, hlost]
    exact hreport
  · subst hlot hstep
    obtain ⟨t, ht, hstarted⟩ := frameEnd_stepStart hl hy hstate hq hleaving hearing
    obtain ⟨h', q', hq', hlot, hnum, hphase⟩ := inRun_eq_some hstarted.runs
    exact ⟨t, h', q', ht, hq', hlot, hnum, hphase, hstarted.window, hstarted.counters⟩

end Sys2Proof.Machine
end

section
/-! The end of a LEAVE sequence (R18, R34, R61, R77, R129, R163): what the entry to OFFLINE leaves, and when it comes. -/

namespace Sys2Proof.Machine

/-! ### SEND FAILED to the owners, at a station that has nothing left to keep -/

/-- What an owner does when it is told SEND FAILED leaves alone, where no entry, no release record and no serve session
is left. -/
structure ToldUnsent (b c : Blocks) : Prop where
  pu : c.pu = b.pu
  hr : c.hr = b.hr
  leaving : c.du.leaving = b.du.leaving
  resp : c.cli.resp = b.cli.resp
  queue : b.du.queue = [] → c.du.queue = []
  releases : b.du.releases = [] → c.du.releases = []
  cu : b.cu.session = none → c.cu = b.cu

theorem ToldUnsent.trans {a b c : Blocks} (h : ToldUnsent a b) (k : ToldUnsent b c) : ToldUnsent a c :=
  ⟨k.pu.trans h.pu, k.hr.trans h.hr, k.leaving.trans h.leaving, k.resp.trans h.resp, fun x => k.queue (h.queue x),
    fun x => k.releases (h.releases x), fun x => (k.cu (by rw [h.cu x]; exact x)).trans (h.cu x)⟩

/-- A change beside all of these. -/
theorem ToldUnsent.of_eq {b c : Blocks} (hpu : c.pu = b.pu) (hhr : c.hr = b.hr) (hcu : c.cu = b.cu)
    (hresp : c.cli.resp = b.cli.resp) (hleaving : c.du.leaving = b.du.leaving) (hqueue : c.du.queue = b.du.queue)
    (hreleases : c.du.releases = b.du.releases) : ToldUnsent b c :=
  ⟨hpu, hhr, hleaving, hresp, hqueue.trans, hreleases.trans, fun _ => hcu⟩

theorem raise_resp (n : Notice) (b : Blocks) : (raise n b).cli.resp = b.cli.resp := (raise_evolves n b).resp

theorem raise_toldUnsent (n : Notice) (b : Blocks) : ToldUnsent b (raise n b) :=
  .of_eq rfl rfl rfl (raise_resp n b) rfl rfl rfl

theorem keepPending_toldUnsent (p : PendingHold) (b : Blocks) : ToldUnsent b (keepPending p b) := by
  unfold keepPending
  split <;> exact .of_eq rfl rfl rfl rfl rfl rfl rfl

theorem updateRelease_toldUnsent (lot : Nat) (f : ReleaseRec → ReleaseRec) (b : Blocks) :
    ToldUnsent b (updateRelease lot f b) where
  pu := rfl
  hr := rfl
  leaving := rfl
  resp := rfl
  queue := id
  releases h := by
    change b.du.releases.map _ = []
    rw [h, List.map_nil]
  cu _ := rfl

theorem startGone_toldUnsent (lot k : Nat) (b : Blocks) : ToldUnsent b (startGone lot k b) where
  pu := rfl
  hr := rfl
  leaving := rfl
  resp := rfl
  queue h := by
    change b.du.queue.map _ = []
    rw [h, List.map_nil]
  releases := id
  cu _ := rfl

theorem endSession_toldUnsent (b : Blocks) : ToldUnsent b (endSession b) := by
  unfold endSession
  split
  · next x hx => exact ⟨rfl, rfl, rfl, rfl, id, id, fun hnone => by rw [hnone] at hx; cases hx⟩
  · exact .of_eq rfl rfl rfl rfl rfl rfl rfl

theorem holdSendFailed_toldUnsent (v : View) (sn : BitVec 8) (t : HoldTarget) (l : Level) (r : Reason) (b : Blocks) :
    ToldUnsent b (holdSendFailed v sn t l r b) := by
  unfold holdSendFailed
  split
  case h_1 => exact raise_toldUnsent _ b
  all_goals exact keepPending_toldUnsent _ b

theorem sendFailed_toldUnsent (v : View) (body : FrameBody) (b : Blocks) : ToldUnsent b (sendFailed v body b) := by
  cases body
  case hold => exact holdSendFailed_toldUnsent v _ _ _ _ b
  case ship => exact updateRelease_toldUnsent _ _ b
  case stepStart => exact startGone_toldUnsent _ _ b
  case snapBegin => exact endSession_toldUnsent b
  case snapEntry => exact endSession_toldUnsent b
  case snapEnd => exact endSession_toldUnsent b
  all_goals first
    | exact raise_toldUnsent _ b
    | exact .of_eq rfl rfl rfl rfl rfl rfl rfl

theorem sendFailedAll_toldUnsent (v : View) : ∀ (es : List SendEntry) (b : Blocks), ToldUnsent b (sendFailedAll v es b)
  | [], _ => .of_eq rfl rfl rfl rfl rfl rfl rfl
  | e :: es, b => (sendFailed_toldUnsent v e.body b).trans (sendFailedAll_toldUnsent v es _)

theorem emptySendQueue_toldUnsent (v : View) (b : Blocks) : ToldUnsent b (emptySendQueue v b) :=
  ToldUnsent.trans (b := { b with lc := { b.lc with queue := [], waiting := [] } }) (.of_eq rfl rfl rfl rfl rfl rfl rfl)
    (sendFailedAll_toldUnsent v _ _)

/-! ### The station taken off the floor -/

/-- The station has left the floor: it is in OFFLINE with what was of the floor emptied, its fitted kit and its response
slot as they were. -/
structure TakenOff (b c : Blocks) : Prop where
  station : c.station = .offline
  peers : c.pu.peers = []
  frames : c.NoFrames
  cu : c.cu = .reset
  leaving : c.du.leaving = false
  queue : c.du.queue = []
  releases : c.du.releases = []
  fitted : c.hr.fitted = b.hr.fitted
  resp : c.cli.resp = b.cli.resp
  reported : c.reported .left

/-- Of the Handler Record the evaluations change the kit request alone. -/
theorem Evolves.fitted {b c : Blocks} (h : Evolves b c) : c.hr.fitted = b.hr.fitted := by
  have k := congrArg (fun x : Blocks => x.hr.fitted) h.core
  exact k

theorem Evolves.peers {b c : Blocks} (h : Evolves b c) : c.pu.peers = b.pu.peers := by
  have k := congrArg (fun x : Blocks => x.pu.peers) h.core
  exact k

theorem queue_nil_iff {b : Blocks} : b.du.queue = [] ↔ b.steps = [] := by rw [Blocks.steps, List.map_eq_nil_iff]

theorem Evolves.queue_nil {b c : Blocks} (h : Evolves b c) (hq : b.du.queue = []) : c.du.queue = [] :=
  queue_nil_iff.mpr (h.steps.trans (queue_nil_iff.mp hq))

theorem TakenOff.evolves {a b c : Blocks} (h : TakenOff a b) (k : Evolves b c) (hframes : c.NoFrames) : TakenOff a c where
  station := k.station.trans h.station
  peers := k.peers.trans h.peers
  frames := hframes
  cu := k.cu.trans h.cu
  leaving := k.leaving.trans h.leaving
  queue := k.queue_nil h.queue
  releases := k.releases.trans h.releases
  fitted := k.fitted.trans h.fitted
  resp := k.resp.trans h.resp
  reported := k.reported h.reported

theorem TakenOff.settle {a b : Blocks} (v : View) (h : TakenOff a b) : TakenOff a (settle v b) :=
  h.evolves (settle_evolves v b) ((settle_link v b).silent (by rw [h.station]; rfl) h.frames)

theorem TakenOff.keepParkTimer {a b : Blocks} (v : View) (h : TakenOff a b) : TakenOff a (keepParkTimer v b) :=
  h.evolves (keepParkTimer_evolves v b) h.frames

/-- The fitted kit and the response slot outlive the emptying of the Dispatch Queue, the session and the kit request. -/
theorem emptied_rest (v : View) (b : Blocks) :
    (endRequest (endSession (emptyDispatchQueue v b))).hr.fitted = b.hr.fitted ∧
      (endRequest (endSession (emptyDispatchQueue v b))).cli.resp = b.cli.resp := by
  have hreconcile : (reconcile v false b).hr.fitted = b.hr.fitted :=
    (upkeepRequest_evolves _).fitted.trans (congrArg HandlerRecord.fitted (removeLost_rest v false _ b).1)
  have hresp : (reconcile v false b).cli.resp = b.cli.resp := by
    have htaken := (reconcile_link v false b).taken
    exact congrArg (fun x => x.2.1) htaken
  have hend := endSession_toldUnsent (emptyDispatchQueue v b)
  have hrequest := endRequest_evolves (endSession (emptyDispatchQueue v b))
  exact ⟨hrequest.fitted.trans ((congrArg HandlerRecord.fitted hend.hr).trans hreconcile),
    hrequest.resp.trans (hend.resp.trans hresp)⟩

/-- An emptied Dispatch Queue stays empty to the entry to OFFLINE. -/
theorem emptied_queue (v : View) (b : Blocks) :
    (goOffline (endRequest (endSession (emptyDispatchQueue v b)))).du.queue = [] := by
  have hend := (endSession_toldUnsent (emptyDispatchQueue v b)).queue rfl
  rw [goOffline, (endRequest_rest _).1]
  exact hend

/-- Entry to OFFLINE takes the station off the floor (R18, R34). -/
theorem enterOffline_takenOff (v : View) (b : Blocks) : TakenOff b (enterOffline v b) := by
  obtain ⟨hfitted, hresp⟩ := emptied_rest v b
  obtain ⟨d, hd⟩ : ∃ d, d = goOffline (endRequest (endSession (emptyDispatchQueue v b))) := ⟨_, rfl⟩
  have hq : d.du.queue = [] := hd ▸ emptied_queue v b
  have hcu : d.cu = .reset := hd ▸ rfl
  have hunsent := (emptySendQueue_toldUnsent v d).trans (raise_toldUnsent .left _)
  have heq : enterOffline v b = markDue (raise .left (emptySendQueue v d)) := by
    rw [hd]
    rfl
  rw [heq]
  exact {
    station := (congrArg PresenceUnit.station hunsent.pu).trans (hd ▸ rfl)
    peers := (congrArg PresenceUnit.peers hunsent.pu).trans (hd ▸ rfl)
    frames := emptySendQueue_noFrames v d
    cu := (hunsent.cu (by rw [hcu]; rfl)).trans hcu
    leaving := hunsent.leaving.trans (hd ▸ rfl)
    queue := hunsent.queue hq
    releases := hunsent.releases (hd ▸ rfl)
    fitted := (congrArg HandlerRecord.fitted hunsent.hr).trans (by rw [hd]; exact hfitted)
    resp := hunsent.resp.trans (by rw [hd]; exact hresp)
    reported := raise_reported .left _ }

/-! ### The end of a command in a LEAVE sequence (R34) -/

theorem leaveComplete_iff (b : Blocks) :
    leaveComplete b = true ↔ b.du.leaving = true ∧ (∀ e ∈ b.du.queue, e.cede = none) ∧ b.lc.bidInTx = false := by
  simp [leaveComplete, and_assoc]

theorem finish_complete {v : View} {b : Blocks} (h : leaveComplete (settle v b) = true) : TakenOff b (finish v b) := by
  have hoff := ((enterOffline_takenOff v (settle v b)).settle v).keepParkTimer v
  have hfinish : finish v b = keepParkTimer v (settle v (enterOffline v (settle v b))) := by
    rw [finish, completeLeave, if_pos h]
  have hsettle := settle_evolves v b
  rw [hfinish]
  exact { hoff with
    fitted := hoff.fitted.trans hsettle.fitted
    resp := hoff.resp.trans hsettle.resp }

theorem finish_incomplete {v : View} {b : Blocks} (h : leaveComplete (settle v b) = false) :
    finish v b = keepParkTimer v (settle v b) := by
  rw [finish, completeLeave, if_neg (by rw [h]; exact Bool.false_ne_true)]

theorem finish_incomplete_evolves {v : View} {b : Blocks} (h : leaveComplete (settle v b) = false) :
    Evolves b (finish v b) := by
  rw [finish_incomplete h]
  exact (settle_evolves v b).trans (keepParkTimer_evolves v _)

theorem bidInTx_congr {l m : LinkController} (h : m.tx = l.tx) : m.bidInTx = l.bidInTx := by
  rw [LinkController.bidInTx, h]
  rfl

/-- With an empty Dispatch Queue and no own BID in transmission the sequence is complete. -/
theorem finish_of_empty {v : View} {b : Blocks} (hl : b.du.leaving = true) (hq : b.du.queue = [])
    (hbid : b.lc.bidInTx = false) : TakenOff b (finish v b) := by
  have hsettle := settle_evolves v b
  refine finish_complete ((leaveComplete_iff _).mpr ⟨hsettle.leaving.trans hl, fun e he => ?_, ?_⟩)
  · rw [hsettle.queue_nil hq] at he
    cases he
  · exact (bidInTx_congr (settle_quiet v b).tx).trans hbid

/-- What keeps a sequence in progress at the end of a command. -/
theorem finish_leaving {v : View} {b : Blocks} (h : (finish v b).du.leaving = true) :
    (∃ e ∈ (finish v b).du.queue, e.cede.isSome = true) ∨ (finish v b).lc.bidInTx = true := by
  cases hcomplete : leaveComplete (settle v b) with
  | true =>
    rw [(finish_complete hcomplete).leaving] at h
    cases h
  | false =>
    rw [finish_incomplete hcomplete] at h ⊢
    change (∃ e ∈ (settle v b).du.queue, e.cede.isSome = true) ∨ (settle v b).lc.bidInTx = true
    by_contra hnot
    obtain ⟨hcedes, hbid⟩ := not_or.mp hnot
    have hnone : ∀ e ∈ (settle v b).du.queue, e.cede = none := fun e he =>
      Option.not_isSome_iff_eq_none.mp fun hsome => hcedes ⟨e, he, hsome⟩
    have htrue : leaveComplete (settle v b) = true :=
      (leaveComplete_iff _).mpr ⟨h, hnone, (Bool.not_eq_true _).mp hbid⟩
    rw [htrue] at hcomplete
    cases hcomplete

/-- A sequence that is no longer in progress at the end of a command is complete, with no LOAD or VERIFY in flight for a
program of a slot. -/
theorem finish_left {v : View} {b : Blocks} (hl : b.du.leaving = true) (h : (finish v b).du.leaving = false) :
    TakenOff b (finish v b) := by
  cases hcomplete : leaveComplete (settle v b) with
  | true => exact finish_complete hcomplete
  | false =>
    rw [(finish_incomplete_evolves hcomplete).leaving, hl] at h
    cases h

/-- With an empty Dispatch Queue no program is wanted (R117). -/
theorem loadWanted_of_empty {v : View} {b : Blocks} (hq : b.du.queue = []) (h : LoadWanted v b) {op : Operation}
    {slot : Slot} (hop : b.le.op = some op) (hslot : op.slot = some slot) (hpair : (b.le.slot slot).pair? ≠ none) :
    op.kind = .swap ∨ op.kind = .purge := by
  obtain ⟨kind, x, tm⟩ := op
  obtain rfl : x = some slot := hslot
  have hnot : kind = .load ∨ kind = .verify → False := fun hk => by
    cases hp : (b.le.slot slot).prog with
    | none => exact hpair (by rw [SlotRec.pair?, hp]; rfl)
    | some p =>
      have hwanted := (h kind slot tm p hop hk hp).2
      simp [wanted, hq] at hwanted
  cases kind <;> simp_all

end Sys2Proof.Machine
end

section
/-! Cede cause LEAVE on every entry (R34, R94, R101): set by LEAVE, and kept by the evaluations. -/

namespace Sys2Proof.Machine

/-- Every entry has cede cause LEAVE. -/
def Blocks.Ceding (b : Blocks) : Prop := ∀ e ∈ b.du.queue, e.cede = some .leave

theorem Blocks.Ceding.of_queue {b c : Blocks} (h : b.Ceding) (hq : c.du.queue = b.du.queue) : c.Ceding := by
  unfold Blocks.Ceding
  rw [hq]
  exact h

theorem Blocks.Ceding.foldOver {α : Type} {f : List α → Blocks → Blocks} {g : α → Blocks → Blocks} (hnil : ∀ b, f [] b = b)
    (hcons : ∀ x xs b, f (x :: xs) b = f xs (g x b)) (hg : ∀ x b, b.Ceding → (g x b).Ceding) (xs : List α) :
    ∀ b, b.Ceding → (f xs b).Ceding := by
  induction xs with
  | nil => exact fun b h => by rw [hnil]; exact h
  | cons x xs ih => exact fun b h => by rw [hcons]; exact ih _ (hg x b h)

theorem mem_updateEntry {l k : Nat} {f : QueueEntry → QueueEntry} {b : Blocks} {e : QueueEntry}
    (h : e ∈ (updateEntry l k f b).du.queue) : ∃ x ∈ b.du.queue, x.key = (l, k) ∧ e = f x ∨ x.key ≠ (l, k) ∧ e = x := by
  simp only [updateEntry_du, DispatchUnit.updateEntry, List.mem_map] at h
  obtain ⟨x, hx, rfl⟩ := h
  refine ⟨x, hx, ?_⟩
  split
  · next hkey => exact .inl ⟨by simpa [QueueEntry.key] using hkey, rfl⟩
  · next hkey => exact .inr ⟨by simpa [QueueEntry.key] using hkey, rfl⟩

theorem Blocks.Ceding.updateEntry {l k : Nat} {f : QueueEntry → QueueEntry} {b : Blocks} (h : b.Ceding)
    (hf : ∀ e : QueueEntry, e.cede = some .leave → (f e).cede = some .leave) : (updateEntry l k f b).Ceding := by
  intro e he
  obtain ⟨x, hx, ⟨-, rfl⟩ | ⟨-, rfl⟩⟩ := mem_updateEntry he
  · exact hf x (h x hx)
  · exact h e hx

/-! ### An event of R94 for one entry -/

/-- The queue after an event of R94 for an entry before its run. -/
theorem setCede_queue {c : CedeCause} {l k : Nat} {b : Blocks} {e : QueueEntry} (he : b.du.entry? l k = some e)
    (hphase : beforeRun e.phase = true) : (setCede c l k b).du.queue =
      (updateEntry l k (fun e => { e with cede := some (mergeCause e.cede c) }) b).du.queue := by
  have hdue : ∀ d : Blocks, (dueIfReady e (if e.phase == .ready then withdrawAll (isStartOf l k) d else d)).du.queue
      = d.du.queue := fun d => by
    unfold dueIfReady
    split <;> rfl
  have hcede : ∀ (host : Bool) (d : Blocks), (enqueueCede l k host d).du.queue = d.du.queue := fun host d => by
    unfold enqueueCede
    split
    · rfl
    · exact (offer_reoffers ..).queue
  simp only [setCede, he, hphase, if_true]
  split
  · rw [hcede, hdue]
  · rw [hdue]

theorem setCede_other {c : CedeCause} {l k : Nat} {b : Blocks}
    (h : ∀ e, b.du.entry? l k = some e → beforeRun e.phase = false) : setCede c l k b = b := by
  unfold setCede
  split
  · next e he => exact if_neg (by rw [h e he]; exact Bool.false_ne_true)
  · rfl

/-- Cede cause HOLD replaces none (R94). -/
theorem Blocks.Ceding.setHold {b : Blocks} (h : b.Ceding) (l k : Nat) : (setCede .hold l k b).Ceding := by
  by_cases hentry : ∃ e, b.du.entry? l k = some e ∧ beforeRun e.phase = true
  · obtain ⟨e, he, hphase⟩ := hentry
    refine Blocks.Ceding.of_queue (h.updateEntry fun x hx => ?_) (setCede_queue he hphase)
    rw [hx]
    rfl
  · rw [setCede_other fun e he => (Bool.not_eq_true _).mp fun hphase => hentry ⟨e, he, hphase⟩]
    exact h

theorem Blocks.Ceding.holdCede {b : Blocks} (h : b.Ceding) (v : View) (e : QueueEntry) : (holdCede v e b).Ceding := by
  unfold Machine.holdCede
  split
  · split
    · exact h.setHold _ _
    · exact h
  · split
    · refine Blocks.Ceding.of_queue (b := Machine.updateEntry _ _ _ b) (h.updateEntry fun x hx => ?_) rfl
      rw [if_neg (by rw [hx]; decide)]
      exact hx
    · exact h

/-! ### The evaluations -/

theorem Blocks.Ceding.computeNeeds {b : Blocks} (h : b.Ceding) (v : View) (e : QueueEntry) :
    (computeNeeds v e b).Ceding := by
  unfold Machine.computeNeeds
  simp only
  split
  · refine Blocks.Ceding.of_queue (b := Machine.updateEntry e.lot e.step _ b) (h.updateEntry ?_)
      (Reoffers.ite (raise_reoffers _ _) (.refl _)).queue
    exact fun _ hx => hx
  · exact h.updateEntry fun _ hx => hx

theorem Blocks.Ceding.withHead {b : Blocks} (h : b.Ceding) {f : QueueEntry → Blocks → Blocks}
    (hf : ∀ e q, b.du.queue = e :: q → (f e b).Ceding) : (withHead f b).Ceding := by
  unfold Machine.withHead
  split
  · next e q hq => exact hf e q hq
  · exact h

theorem Blocks.Ceding.enterHead {b : Blocks} (h : b.Ceding) : (enterHead b).Ceding :=
  h.withHead fun _ _ _ => by
    unfold headEnters
    split
    · exact h.updateEntry fun _ hx => hx
    · exact h

theorem Blocks.Ceding.resumed {b : Blocks} (h : b.Ceding) (v : View) : (b.resumed v).Ceding := by
  have hneeds : (computeAllNeeds v b.du.queue b).Ceding :=
    Blocks.Ceding.foldOver (fun _ => rfl) (fun _ _ _ => rfl) (fun e _ hc => hc.computeNeeds v e) _ b h
  have hholds : ∀ c : Blocks, c.Ceding → (holdCedes v c.du.queue c).Ceding := fun c hc =>
    Blocks.Ceding.foldOver (fun _ => rfl) (fun _ _ _ => rfl) (fun e _ hd => hd.holdCede v e) _ c hc
  have hentered := (hholds _ hneeds.enterHead).enterHead
  exact hentered.withHead fun e _ _ => hentered.holdCede v e

/-- A head that has a cede cause makes no requests, so no other cause is set on it (R90, R95). -/
theorem Blocks.Ceding.headAsks {b : Blocks} (h : b.Ceding) (v : View) : (Machine.withHead (headAsks v) b).Ceding :=
  h.withHead fun e q hq => by
    have hcede : e.cede = some .leave := h e (by rw [hq]; exact List.mem_cons_self)
    unfold Machine.headAsks
    rw [if_neg (by simp [hcede])]
    exact h

theorem Blocks.Ceding.evaluateDispatch {b : Blocks} (h : b.Ceding) (v : View) : (evaluateDispatch v b).Ceding := by
  have howing : (b.resumed v).owing.Ceding := (h.resumed v).of_queue (oweCedes_queue _ _)
  have hfallen : (Machine.withHead (headFalls v) (b.resumed v).owing).Ceding := howing.withHead fun e _ _ => by
    unfold headFalls
    split
    · exact Blocks.Ceding.of_queue (howing.updateEntry (l := e.lot) (k := e.step)
        (f := fun e => { e with phase := .preparing, asked := false }) fun _ hx => hx) rfl
    · exact howing
  have hasked := hfallen.headAsks v
  have hready : (Machine.withHead (headReady v) (Machine.withHead (Machine.headAsks v)
      (Machine.withHead (headFalls v) (b.resumed v).owing))).Ceding := hasked.withHead fun e _ _ => by
    unfold headReady makeReady
    split
    · split
      · exact Blocks.Ceding.of_queue (hasked.updateEntry (l := e.lot) (k := e.step)
          (f := fun e => { e with phase := .ready }) fun _ hx => hx) (offer_reoffers ..).queue
      · exact hasked
    · exact hasked
  rw [evaluateDispatch_eq]
  exact hready.of_queue (evaluateDeference_reoffers v _).queue

theorem Blocks.Ceding.settleRound {b : Blocks} (h : b.Ceding) (v : View) : (settleRound v b).Ceding := by
  have hdue : (evaluateIfDue v b).Ceding := by
    unfold evaluateIfDue
    split
    · exact Blocks.Ceding.evaluateDispatch (b := { b with du := { b.du with evalDue := false } }) h v
    · exact h
  obtain ⟨l, due, hload⟩ := evaluateLoad_rest v (upkeepRequest (evaluateIfDue v b))
  obtain ⟨hdu, -, -, -⟩ := evaluateGate_rest v (evaluateLoad v (upkeepRequest (evaluateIfDue v b)))
  refine hdue.of_queue ?_
  have hupkeep := congrArg DispatchUnit.queue (upkeepRequest_rest (evaluateIfDue v b)).1
  rw [Machine.settleRound, hdu, hload]
  exact hupkeep

theorem Blocks.Ceding.settle {b : Blocks} (h : b.Ceding) (v : View) : (settle v b).Ceding :=
  settle_keeps (P := Blocks.Ceding) (fun _ hc => hc.settleRound v) b h

/-! ### The causes set by LEAVE (R34) -/

theorem entry?_isSome {b : Blocks} {e : QueueEntry} (he : e ∈ b.du.queue) :
    ∃ x ∈ b.du.queue, b.du.entry? e.lot e.step = some x := by
  cases hx : b.du.entry? e.lot e.step with
  | some x => exact ⟨x, List.mem_of_find?_eq_some hx, rfl⟩
  | none =>
    have hnone := List.find?_eq_none.mp hx e he
    simp at hnone

/-- The causes LEAVE reach every entry they are set for, where none is in run. -/
theorem setCedes_ceding : ∀ (es : List QueueEntry) (b : Blocks), (∀ e ∈ b.du.queue, beforeRun e.phase = true) →
    (∀ e ∈ b.du.queue, e.cede = some .leave ∨ e.key ∈ es.map QueueEntry.key) → (setCedes .leave es b).Ceding
  | [], b, _, h => fun e he => (h e he).elim id fun hmem => by simp at hmem
  | x :: es, b, hphases, h => by
    refine setCedes_ceding es (setCede .leave x.lot x.step b) (fun e he => ?_) fun e he => ?_
    · have hmem : (e.key, e.phase) ∈ (setCede .leave x.lot x.step b).phases := List.mem_map_of_mem he
      rw [setCede_phases] at hmem
      obtain ⟨y, hy, hsame⟩ := List.mem_map.mp hmem
      rw [← (Prod.mk.inj hsame).2]
      exact hphases y hy
    · by_cases hentry : ∃ y, b.du.entry? x.lot x.step = some y
      · obtain ⟨y, hy⟩ := hentry
        rw [setCede_queue hy (hphases y (List.mem_of_find?_eq_some hy))] at he
        obtain ⟨z, hz, ⟨-, rfl⟩ | ⟨hkey, rfl⟩⟩ := mem_updateEntry he
        · refine .inl (congrArg some ?_)
          unfold mergeCause
          split <;> rfl
        · refine (h e hz).imp_right fun hmem => ?_
          exact (List.mem_cons.mp hmem).resolve_left hkey
      · rw [setCede_other fun y hy => absurd ⟨y, hy⟩ hentry] at he
        refine (h e he).imp_right fun hmem => (List.mem_cons.mp hmem).resolve_left fun hkey => hentry ?_
        obtain ⟨y, -, hy⟩ := entry?_isSome he
        have hlot : e.lot = x.lot := congrArg Prod.fst hkey
        have hstep : e.step = x.step := congrArg Prod.snd hkey
        exact ⟨y, by rw [← hlot, ← hstep]; exact hy⟩

end Sys2Proof.Machine
end

section
/-! LEAVE (R34): O51. -/

namespace Sys2Proof.Machine

/-! ### What leaves a LEAVE sequence in progress -/

theorem ite_leaving {p : Prop} [Decidable p] {b c : Blocks} {x : Bool} (h : b.du.leaving = x) (k : c.du.leaving = x) :
    (if p then b else c).du.leaving = x := by
  split
  · exact h
  · exact k

theorem foldOver_leaving {α : Type} {f : List α → Blocks → Blocks} {g : α → Blocks → Blocks} (hnil : ∀ b, f [] b = b)
    (hcons : ∀ x xs b, f (x :: xs) b = f xs (g x b)) (hg : ∀ x b, (g x b).du.leaving = b.du.leaving) (xs : List α) :
    ∀ b, (f xs b).du.leaving = b.du.leaving := by
  induction xs with
  | nil => exact fun b => by rw [hnil]
  | cons x xs ih => exact fun b => by rw [hcons]; exact (ih _).trans (hg x b)

theorem offer_leaving (body : FrameBody) (t : Nat) (o : Owner) (host : Bool) (b : Blocks) :
    (offer body t o host b).du.leaving = b.du.leaving := ite_leaving rfl rfl

theorem autoHold_leaving (v : View) (t : HoldTarget) (l : Level) (r : Reason) (b : Blocks) :
    (autoHold v t l r b).du.leaving = b.du.leaving :=
  ite_leaving (keepPending_toldUnsent _ b).leaving (ite_leaving rfl (ite_leaving rfl (offer_leaving ..)))

theorem reofferOwed_leaving (v : View) (b : Blocks) : (reofferOwed v b).du.leaving = b.du.leaving := by
  have hgives : ∀ (ks : List Nat) (c : Blocks), (enqueueGives ks c).du.leaving = c.du.leaving :=
    foldOver_leaving (fun _ => rfl) (fun _ _ _ => rfl) fun _ c => ite_leaving rfl (offer_leaving ..)
  have htake : ∀ c, (reofferTake c).du.leaving = c.du.leaving := fun c => by
    unfold reofferTake
    split
    · split
      · exact ite_leaving rfl (offer_leaving ..)
      · rfl
    · rfl
  have htally : ∀ c, (reofferTally c).du.leaving = c.du.leaving := fun c => by
    unfold reofferTally
    split
    · exact offer_leaving ..
    · rfl
  have hretry : ∀ (ps : List PendingHold) (c : Blocks), (retryHolds v ps c).du.leaving = c.du.leaving :=
    foldOver_leaving (fun _ => rfl) (fun _ _ _ => rfl) fun _ c => autoHold_leaving v _ _ _ c
  have hholds : ∀ c, (retryPendingHolds v c).du.leaving = c.du.leaving := fun c => hretry _ _
  exact (hholds _).trans ((htally _).trans ((htake _).trans (hgives _ b)))

theorem orphanCheck_leaving (v : View) (b : Blocks) : (orphanCheck v b).du.leaving = b.du.leaving := by
  have heach : ∀ (ps : List PeerRec) (c : Blocks), (orphanEach v ps c).du.leaving = c.du.leaving :=
    foldOver_leaving (fun _ => rfl) (fun _ _ _ => rfl) fun _ c => ite_leaving (offer_leaving ..) rfl
  exact ite_leaving (heach _ b) rfl

theorem checkOwned_leaving (v : View) (l : LotRec) (b : Blocks) : (checkOwned v l b).du.leaving = b.du.leaving := by
  have hensure : (ensureRelease l.lot b).du.leaving = b.du.leaving := by
    unfold ensureRelease
    split <;> rfl
  have hupdate : ∀ (f : ReleaseRec → ReleaseRec) (c : Blocks), (updateRelease l.lot f c).du.leaving = c.du.leaving :=
    fun _ _ => rfl
  have hcount : ∀ c, (countHold v l.lot c).du.leaving = c.du.leaving := fun c => by
    unfold countHold
    split
    · exact ite_leaving rfl (autoHold_leaving ..)
    · rfl
  have hship : ∀ c, (enqueueShip l c).du.leaving = c.du.leaving := fun c => by
    unfold enqueueShip
    split
    · exact ite_leaving rfl (offer_leaving ..)
    · rfl
  have hwaiting : ∀ c, (releaseWaiting l.lot c).du.leaving = c.du.leaving := fun c => by
    unfold releaseWaiting
    split
    · exact ite_leaving rfl rfl
    · rfl
  have hcases : ∀ c, (checkOwned v l c).du.leaving = (ensureRelease l.lot c).du.leaving := fun c =>
    ite_leaving (hcount _) (ite_leaving (hupdate _ _) (ite_leaving (hship _) (hwaiting _)))
  exact (hcases b).trans hensure

theorem releaseChecks_leaving (v : View) (b : Blocks) : (releaseChecks v b).du.leaving = b.du.leaving := by
  have hprune : ∀ (rs : List ReleaseRec) (c : Blocks), (pruneReleases v rs c).du.leaving = c.du.leaving :=
    foldOver_leaving (fun _ => rfl) (fun _ _ _ => rfl) fun _ c => ite_leaving rfl (ite_leaving rfl rfl)
  have hcheck : ∀ (ls : List LotRec) (c : Blocks), (checkLots v ls c).du.leaving = c.du.leaving :=
    foldOver_leaving (fun _ => rfl) (fun _ _ _ => rfl) fun l c => ite_leaving (checkOwned_leaving v l c) rfl
  exact ite_leaving ((hcheck _ _).trans (hprune _ b)) rfl

/-- An entry to ACTIVE ends no membership and keeps a LEAVE sequence. -/
theorem enterActive_leaving (v : View) (b : Blocks) : (enterState v .active b).du.leaving = b.du.leaving := by
  have howed : ∀ c, (if acceptsFrames .active then reofferOwed v c else c).du.leaving = c.du.leaving := fun c =>
    ite_leaving (reofferOwed_leaving v c) rfl
  have hreleases : ∀ c : Blocks, (if isWorking .active then c else { c with du := { c.du with releases := [] } }).du.leaving
      = c.du.leaving := fun _ => rfl
  have hbeacon : (if beacons .active then offerBeacon (inState v .active b) else inState v .active b).du.leaving
      = b.du.leaving := ite_leaving (offer_leaving ..) rfl
  have hmember : (isMember b.station && !isMember .active) = false := Bool.and_false _
  unfold enterState
  simp only [hmember, Bool.false_eq_true, if_false]
  exact (howed _).trans ((hreleases _).trans hbeacon)

/-! ### With an empty Dispatch Queue -/

theorem reconcile_empty {v : View} {b : Blocks} (a : Bool) (hq : b.du.queue = []) : (reconcile v a b).du = b.du := by
  rw [reconcile, (upkeepRequest_rest _).1, hq, removeLost]

theorem unpark_empty {v : View} {b : Blocks} (hq : b.du.queue = []) :
    (unpark v b).du.queue = [] ∧ (unpark v b).du.leaving = b.du.leaving := by
  unfold unpark
  split
  · have hmember : (isMember b.station && !isMember .active) = false := Bool.and_false _
    have hqueue : (orphanCheck v (enterState v .active b)).du.queue = [] :=
      (orphanCheck_reoffers v _).queue.trans ((enterState_reoffers v hmember).queue.trans hq)
    rw [reconcile_empty false hqueue]
    exact ⟨hqueue, (orphanCheck_leaving v _).trans (enterActive_leaving v b)⟩
  · exact ⟨hq, rfl⟩

/-- An own BID heard without effect leaves an empty Dispatch Queue empty and a LEAVE sequence in progress. -/
theorem signalBlocks_lostBid {v : View} {sig : Signal} {b : Blocks} {lot k : Nat} (hbody : sig.body = .bid lot k)
    (hown : sig.own = true) (heffect : sig.effect = false) (hq : b.du.queue = []) :
    (signalBlocks v sig b).du.queue = [] ∧ (signalBlocks v sig b).du.leaving = b.du.leaving := by
  obtain ⟨c, hc⟩ : ∃ c, c = markEntries v sig b := ⟨_, rfl⟩
  obtain ⟨-, -, hleaving, hqueue⟩ := markEntries_rest v sig b
  rw [hq, List.map_nil] at hqueue
  rw [← hc] at hleaving hqueue
  have hreconciled : (reconcileOn v sig c).du = c.du := by
    unfold reconcileOn
    split
    · exact reconcile_empty false hqueue
    · rfl
  have hreconciledQueue : (reconcileOn v sig c).du.queue = [] := by rw [hreconciled, hqueue]
  have hentered : enterHead (reconcileOn v sig c) = reconcileOn v sig c := withHead_nil hreconciledQueue
  have hsignal : signalBlocks v sig b = markDue (releaseChecks v (unpark v (reconcileOn v sig c))) := by
    rw [← hentered, hc]
    simp only [signalBlocks, replicaNotices, dispatchOutcome, watchOutcome, presenceOutcome, handlerOutcome, cellOutcome,
      hbody, hown, heffect, Bool.and_false, Bool.false_eq_true, if_false, if_true]
  obtain ⟨hempty, hsame⟩ := unpark_empty (v := v) hreconciledQueue
  rw [hsignal]
  refine ⟨(releaseChecks_reoffers v _).queue.trans hempty, ?_⟩
  calc (markDue (releaseChecks v (unpark v (reconcileOn v sig c)))).du.leaving
      = (unpark v (reconcileOn v sig c)).du.leaving := releaseChecks_leaving v _
    _ = c.du.leaving := by rw [hsame, hreconciled]
    _ = b.du.leaving := hleaving

/-- A LEAVE sequence completes when the last own BID is heard without effect (R34). -/
theorem frameEnd_lostBid {s : State} {auth : Level} {lot k : Nat} (hl : s.blocks.du.leaving = true)
    (hq : s.blocks.du.queue = []) (h : s.Hearing .own s.stationId auth (.bid lot k))
    (hlost : takesEffect s.re.replica auth s.stationId (.bid lot k) = false) :
    ∃ t, exec (.frameEnd .own) s = .next t ∧ t.blocks.station = .offline ∧ t.blocks.du.leaving = false := by
  obtain ⟨t, ht, -, hblocks⟩ := frameEnd_own_blocks h
  rw [(frameEnd_own h).2] at hlost
  have hempty := signalBlocks_lostBid (v := s.applied (.bid lot k)) (sig := s.signal (.bid lot k)) (lot := lot) (k := k)
    (b := { s.blocks with lc := s.blocks.lc.sent }) rfl rfl hlost hq
  have htx := (signalBlocks_attends (s.applied (.bid lot k)) (s.signal (.bid lot k))
    { s.blocks with lc := s.blocks.lc.sent }).tx.trans (LinkController.sent_tx _)
  have hoff := finish_of_empty (v := s.applied (.bid lot k)) (hempty.2.trans hl) hempty.1
    (by rw [LinkController.bidInTx, htx])
  rw [← hblocks] at hoff
  exact ⟨t, ht, hoff.station, hoff.leaving⟩

/-! ### The request -/

/-- LEAVE is the start of a LEAVE sequence, evolved by the withdrawals and the cede causes. -/
theorem beginLeave_evolves (b : Blocks) : Evolves { b with du := { b.du with leaving := true } } (beginLeave b) :=
  ((markDue_evolves _).trans ((withdrawAll_evolves _ _).trans (withdrawAll_evolves _ _))).trans (setCedes_evolves _ _ _)

/-- A LEAVE with entries that have not run gives each of them cede cause LEAVE (R94). -/
theorem beginLeave_ceding {b : Blocks} (h : ∀ e ∈ b.du.queue, beforeRun e.phase = true) : (beginLeave b).Ceding :=
  setCedes_ceding _ _ h fun _ he => .inr (List.mem_map_of_mem he)

/-- The state where an accepted LEAVE has been acted upon and answered. -/
def State.leaves (s : State) : State := s.answered 3 (okAnswer, beginLeave s.taking.blocks)

theorem exec_leave {s : State} (h : s.TakesAtOnce) (hw : isWorking s.blocks.station = true)
    (hruns : queueRuns s.view s.blocks = false) (htest : s.blocks.iw.inTest = false)
    (hl : s.blocks.du.leaving = false) : exec .leave s = .next s.leaves.finish := by
  refine exec_gives (r := .leave) h rfl rfl ?_
  refine (if_neg ?_).trans ((if_neg ?_).trans (if_neg ?_))
  · rw [taking_station, hw]
    exact Bool.false_ne_true
  · change ¬(queueRuns s.view s.blocks || s.blocks.iw.inTest) = true
    rw [hruns, htest]
    exact Bool.false_ne_true
  · change ¬s.blocks.du.leaving = true
    rw [hl]
    exact Bool.false_ne_true

theorem leaves_resp (s : State) : s.leaves.blocks.cli.resp = some ⟨3, .ok, 0, .none⟩ := rfl

theorem leaves_tx (s : State) : s.leaves.blocks.lc.tx = s.blocks.lc.tx :=
  (beginLeave_evolves s.taking.blocks).attends.tx

/-- Of what a LEAVE sequence and the evaluations keep, an accepted LEAVE sets the sequence and the response. -/
theorem leaves_rest (s : State) : s.leaves.blocks.station = s.blocks.station ∧ s.leaves.blocks.du.leaving = true ∧
    s.leaves.blocks.steps = s.blocks.steps ∧ s.leaves.blocks.hr.fitted = s.blocks.hr.fitted := by
  have hbegun := beginLeave_evolves s.taking.blocks
  exact ⟨hbegun.station, hbegun.leaving, hbegun.steps, hbegun.fitted⟩

theorem queueRuns_empty {v : View} {b : Blocks} (hq : b.du.queue = []) : queueRuns v b = false := by
  rw [queueRuns, hq]
  rfl

theorem leaves_queue {s : State} (hq : s.blocks.du.queue = []) : s.leaves.blocks.du.queue = [] := by
  obtain ⟨-, -, hsteps, -⟩ := leaves_rest s
  exact queue_nil_iff.mpr (hsteps.trans (queue_nil_iff.mp hq))

/-- A sequence that is not complete leaves the station as LEAVE has left it. -/
theorem leaves_goesOn {s : State} (h : leaveComplete (settle s.view s.leaves.blocks) = false) :
    s.leaves.finish.blocks.station = s.blocks.station ∧ s.leaves.finish.blocks.du.leaving = true ∧
      s.leaves.finish.blocks.steps = s.blocks.steps ∧
      s.leaves.finish.blocks.cli.resp = some ⟨3, .ok, 0, .none⟩ := by
  obtain ⟨hstation, hleaving, hsteps, -⟩ := leaves_rest s
  have hevolves : Evolves s.leaves.blocks s.leaves.finish.blocks := finish_incomplete_evolves (v := s.view) h
  exact ⟨hevolves.station.trans hstation, hevolves.leaving.trans hleaving, hevolves.steps.trans hsteps,
    hevolves.resp.trans (leaves_resp s)⟩

/-- With no entry to cede and no own BID in transmission LEAVE completes at once. -/
theorem leave_completes {s : State} (h : s.TakesAtOnce) (hw : isWorking s.blocks.station = true)
    (htest : s.blocks.iw.inTest = false) (hl : s.blocks.du.leaving = false) (hq : s.blocks.du.queue = [])
    (hbid : s.blocks.lc.bidInTx = false) : ∃ t, exec .leave s = .next t ∧ t.re = s.re ∧
      TakenOff s.leaves.blocks t.blocks := by
  obtain ⟨-, hleaving, -, -⟩ := leaves_rest s
  refine ⟨_, exec_leave h hw (queueRuns_empty hq) htest hl, rfl, ?_⟩
  exact finish_of_empty (v := s.view) hleaving (leaves_queue hq) ((bidInTx_congr (leaves_tx s)).trans hbid)

/-- Settles O51. -/
theorem leaveTakesTheStationOff : Obligations.LeaveTakesTheStationOff := by
  refine ⟨fun s h => ⟨fun hw => ?_, fun hw hbusy => ?_, fun hw hruns htest hl => ?_, fun hw htest hl hq hbid => ?_,
    fun hw htest hl hq hbid => ?_, fun hw hruns htest hl hq hphases => ?_⟩,
    fun s hl => finish_leaving (v := s.view) hl,
    fun s auth lot k hl hq _ h hlost => frameEnd_lostBid hl hq h hlost, fun s hl hleft => ?_⟩
  · exact exec_code (r := .leave) h rfl rfl (if_pos (by rw [taking_station, hw]; rfl))
  · refine exec_code (r := .leave) h rfl rfl ((if_neg (by rw [taking_station, hw]; exact Bool.false_ne_true)).trans
      (if_pos (Bool.or_eq_true_iff.mpr ?_)))
    exact hbusy
  · refine exec_code (r := .leave) h rfl rfl ((if_neg (by rw [taking_station, hw]; exact Bool.false_ne_true)).trans
      ((if_neg ?_).trans (if_pos hl)))
    change ¬(queueRuns s.view s.blocks || s.blocks.iw.inTest) = true
    rw [hruns, htest]
    exact Bool.false_ne_true
  · obtain ⟨t, ht, hre, hoff⟩ := leave_completes h hw htest hl hq hbid
    obtain ⟨-, -, -, hfitted⟩ := leaves_rest s
    exact ⟨t, ht, hoff.station, hoff.peers, hoff.frames.1, hoff.frames.2, hoff.cu, hoff.leaving, hoff.releases,
      hoff.fitted.trans hfitted, hre, hoff.resp.trans (leaves_resp s), hoff.reported⟩
  · have hsettled : (settle s.view s.leaves.blocks).lc.bidInTx = true :=
      (bidInTx_congr ((settle_quiet _ _).tx.trans (leaves_tx s))).trans hbid
    have hgoes := leaves_goesOn (s := s) (by rw [leaveComplete, hsettled]; exact Bool.and_false _)
    obtain ⟨hstation, hleaving, hsteps, hresp⟩ := hgoes
    refine ⟨_, exec_leave h hw (queueRuns_empty hq) htest hl, hstation, hleaving,
      queue_nil_iff.mpr (hsteps.trans (queue_nil_iff.mp hq)), ?_, rfl, hresp⟩
    exact (bidInTx_congr ((finish_tx s.view _).trans (leaves_tx s))).trans hbid
  · have hceding : (settle s.view s.leaves.blocks).Ceding :=
      Blocks.Ceding.settle (b := s.leaves.blocks) (beginLeave_ceding (b := s.taking.blocks) hphases) s.view
    have hincomplete : leaveComplete (settle s.view s.leaves.blocks) = false := by
      rw [← Bool.not_eq_true, leaveComplete_iff]
      rintro ⟨-, hnone, -⟩
      obtain ⟨-, -, hsteps, -⟩ := leaves_rest s
      have hsettled := (settle_evolves s.view s.leaves.blocks).steps.trans hsteps
      cases hqueue : (settle s.view s.leaves.blocks).du.queue with
      | nil => exact hq (queue_nil_iff.mpr (hsettled.symm.trans (queue_nil_iff.mp hqueue)))
      | cons e q =>
        have hmem : e ∈ (settle s.view s.leaves.blocks).du.queue := by rw [hqueue]; exact List.mem_cons_self
        have hcede := (hceding e hmem).symm.trans (hnone e hmem)
        cases hcede
    obtain ⟨hstation, hleaving, hsteps, hresp⟩ := leaves_goesOn hincomplete
    refine ⟨_, exec_leave h hw hruns htest hl, hstation, hleaving, hsteps, ?_, rfl, hresp⟩
    have hfinish : s.leaves.finish.blocks = keepParkTimer s.view (settle s.view s.leaves.blocks) :=
      finish_incomplete hincomplete
    rw [hfinish]
    exact hceding
  · have hoff := finish_left (v := s.view) hl hleft
    exact ⟨hoff.station, hoff.queue, fun op slot hop hslot hpair =>
      loadWanted_of_empty hoff.queue (finish_wanted s.view s.blocks) hop hslot hpair⟩

end Sys2Proof.Machine
end
